-- ==== Sys2Proof/Word.lean ====
section
/-!
DEFINITION. The widths of the datapath (spec/00_scope.md R9) and byte sequences (R12).
-/

namespace Sys2Proof

/-- A byte is an 8-bit value (R12). -/
abbrev Byte := BitVec 8

/-- W_OFF = W_LEN = W_SIZE = 32 bits, unsigned (R9). -/
abbrev Word32 := BitVec 32

/-- `zeros(n)`: n bytes of 0x00 (R12). -/
def zeros (n : Nat) : List Byte := List.replicate n 0

end Sys2Proof
end

