-- ==== Sys2Proof/Syntax.lean ====
section
/-!
DEFINITION. The instruction set (spec/opcode_table.json): the requests (R79, R80), the configuration operations (R84),
the chip's command bytes (R70) and the bus phases (R76, R87). One constructor stands for each row; the thirteen
INVALID_REQUEST rows, which overlap one another, are two constructors, one for each descriptor format.
-/

namespace Sys2Proof

/-- Request operation (R80). -/
inductive ReqOp where
  | read
  | write
  | erase
  | sync
  deriving DecidableEq, Repr

/-- Configuration operation (R84). -/
inductive CfgOp where
  | bind
  | unbind
  deriving DecidableEq, Repr

/-- Chip variant (R3, R85). -/
inductive Variant where
  | mr25h128
  | mr25h256
  | mr25h10
  | mr25h40
  deriving DecidableEq, Repr

/-- Framing of a phase (R77): the Begin flag asserts chip-select before the phase's bits, the End flag de-asserts it
after them. -/
inductive Framing where
  | csNone
  | csBegin
  | csEnd
  | csBeginEnd
  deriving DecidableEq, Repr

/-- Direction of a phase (R78); code 3 is reserved and never issued. -/
inductive Direction where
  | noData
  | tx
  | rx
  | reserved
  deriving DecidableEq, Repr

/-- A phase descriptor (R76). The bit length is an exact natural number (R82). -/
structure PhaseDesc where
  framing : Framing
  dir : Direction
  bits : Nat
  deriving DecidableEq, Repr

/-- The port, or wire, a word of each format arrives on: the four formats of the opcode table. -/
inductive Port where
  | request
  | config
  | command
  | phase
  deriving DecidableEq, Repr

/-- The instructions. -/
inductive Instr where
  /-- READ, request op 0 (R150). -/
  | read (offset length : Word32)
  /-- WRITE, request op 1 (R152); its data stand on the request port (R83). -/
  | write (offset length : Word32)
  /-- ERASE, request op 2 (R156). -/
  | erase (offset length : Word32)
  /-- ZFILL, the second name of ERASE's descriptor (R91). -/
  | zfill (offset length : Word32)
  /-- SYNC, request op 3 (R160); offset and length are latched and have no effect (R79). -/
  | sync (offset length : Word32)
  /-- INVALID_REQUEST of a request descriptor: some of its bits 7:2 are set (R81). -/
  | invalidRequest (op : ReqOp) (reserved : BitVec 6) (offset length : Word32)
  /-- BIND, configuration cfg_op 0 (R172). -/
  | bind (variant : Variant)
  /-- UNBIND, configuration descriptor 0x01 (R175). -/
  | unbind
  /-- INVALID_REQUEST of a configuration descriptor: some of bits 7:3 are set, or UNBIND with a variant (R86). -/
  | invalidConfig (op : CfgOp) (variant : BitVec 2) (reserved : BitVec 5)
  /-- Chip command READ 0x03 (R193). -/
  | cmdRead
  /-- Chip command WRITE 0x02 (R195, R196). -/
  | cmdWrite
  /-- Chip command WRITE_ENABLE 0x06 (R198). -/
  | cmdWren
  /-- Phase WREN: BeginEnd, TX, 8 bits (R142). -/
  | phWren
  /-- Phase CMD: Begin, TX, 8 bits (R143). -/
  | phCmd
  /-- Phase ADDR of width 2: None, TX, 16 bits (R144). -/
  | phAddr2
  /-- Phase ADDR of width 3: None, TX, 24 bits (R144). -/
  | phAddr3
  /-- Phase DATA of a READ: End, RX (R145). -/
  | phDataRx (bits : Nat)
  /-- Phase DATA of a WRITE or ERASE: End, TX (R145). -/
  | phDataTx (bits : Nat)
  /-- The release phase: End, NONE, 0 bits (R146, R118). -/
  | phRelease
  deriving DecidableEq, Repr

end Sys2Proof
end

