-- ==== Sys2Proof/WellFormed.lean ====
section
/-!
DEFINITION. Which terms of the syntax stand for a word of the encoding: an INVALID_REQUEST has a bit that makes it
invalid (R81, R86), and a DATA phase moves whole bytes and fits its 32-bit length field (R76).
-/

namespace Sys2Proof

/-- A bit length of a phase descriptor: a multiple of 8 below 2^32 (R76). -/
def validBits (bits : Nat) : Bool := bits % 8 == 0 && decide (bits < 4294967296)

/-- What makes a configuration descriptor illegal (R86). -/
def illegalConfig (op : CfgOp) (variant : BitVec 2) (reserved : BitVec 5) : Bool :=
  reserved != 0 || (op == .unbind && variant != 0)

/-- The instruction is one that some word encodes. -/
def Instr.wellFormed : Instr → Bool
  | .read _ _ => true
  | .write _ _ => true
  | .erase _ _ => true
  | .zfill _ _ => true
  | .sync _ _ => true
  | .invalidRequest _ reserved _ _ => reserved != 0
  | .bind _ => true
  | .unbind => true
  | .invalidConfig op variant reserved => illegalConfig op variant reserved
  | .cmdRead => true
  | .cmdWrite => true
  | .cmdWren => true
  | .phWren => true
  | .phCmd => true
  | .phAddr2 => true
  | .phAddr3 => true
  | .phDataRx bits => validBits bits
  | .phDataTx bits => validBits bits
  | .phRelease => true

end Sys2Proof
end

