-- ==== Sys2Proof/Decode.lean ====
section
/-!
DEFINITION. The decoders of the four formats (spec/30_encoding.md), total on every word and rejecting by name, and the
encoder written from the same tables.
-/

namespace Sys2Proof

/-! ### Field codes -/

/-- Request op codes (R80). -/
def ReqOp.code : ReqOp → BitVec 2
  | .read => 0
  | .write => 1
  | .erase => 2
  | .sync => 3

/-- All four request op codes are used (R80). -/
def ReqOp.ofCode (c : BitVec 2) : ReqOp :=
  if c = 0 then .read else if c = 1 then .write else if c = 2 then .erase else .sync

/-- Configuration op codes (R84). -/
def CfgOp.code : CfgOp → BitVec 1
  | .bind => 0
  | .unbind => 1

/-- Both configuration op codes are used (R84). -/
def CfgOp.ofCode (c : BitVec 1) : CfgOp := if c = 0 then .bind else .unbind

/-- Variant codes, in the order of increasing size (R85). -/
def Variant.code : Variant → BitVec 2
  | .mr25h128 => 0
  | .mr25h256 => 1
  | .mr25h10 => 2
  | .mr25h40 => 3

/-- All four variant codes are used by BIND (R85). -/
def Variant.ofCode (c : BitVec 2) : Variant :=
  if c = 0 then .mr25h128 else if c = 1 then .mr25h256 else if c = 2 then .mr25h10 else .mr25h40

/-- Framing codes: bit 0 is the Begin flag, bit 1 the End flag (R77). -/
def Framing.code : Framing → Nat
  | .csNone => 0
  | .csBegin => 1
  | .csEnd => 2
  | .csBeginEnd => 3

/-- All four framing codes are used (R77). -/
def Framing.ofCode (c : Nat) : Framing :=
  if c = 0 then .csNone else if c = 1 then .csBegin else if c = 2 then .csEnd else .csBeginEnd

/-- Direction codes (R78). -/
def Direction.code : Direction → Nat
  | .noData => 0
  | .tx => 1
  | .rx => 2
  | .reserved => 3

/-- Direction of a 2-bit code (R78). -/
def Direction.ofCode (c : Nat) : Direction :=
  if c = 0 then .noData else if c = 1 then .tx else if c = 2 then .rx else .reserved

/-- The command byte READ (R70). -/
def readByte : Byte := 0x03

/-- The command byte WRITE (R70). -/
def writeByte : Byte := 0x02

/-- The command byte WRITE_ENABLE (R70). -/
def wrenByte : Byte := 0x06

/-! ### Phase descriptors -/

/-- The word of a phase descriptor: framing 1:0, dir 3:2, reserved 7:4 = 0, bit_length from bit 8 (R76). -/
def PhaseDesc.word (d : PhaseDesc) : Nat := d.framing.code + 4 * d.dir.code + 256 * d.bits

/-- The fields of a phase descriptor's word (R76). -/
def PhaseDesc.ofWord (w : Nat) : PhaseDesc :=
  { framing := .ofCode (w % 4), dir := .ofCode (w / 4 % 4), bits := w / 256 }

/-! ### Decoding -/

/-- Why a word is no instruction. -/
inductive Reject where
  /-- The word has more bits than its format. -/
  | tooWide
  /-- A command byte other than 0x02, 0x03 and 0x06 (R72). -/
  | notACommand
  /-- Direction code 3 (R78). -/
  | reservedDirection
  /-- A phase descriptor with one of bits 7:4 set (R76). -/
  | reservedPhaseBits
  /-- A bit length that is no multiple of 8 (R76). -/
  | notWholeBytes
  /-- A phase descriptor that the block issues in no state (R87). -/
  | notAPhaseOfTheBlock
  deriving DecidableEq, Repr

/-- The request port's decoder: every 72-bit descriptor is a request or an INVALID_REQUEST (R79, R81, R92). -/
def decodeRequest (d : BitVec 72) : Instr :=
  let op := ReqOp.ofCode (d.extractLsb' 0 2)
  let reserved : BitVec 6 := d.extractLsb' 2 6
  let offset : Word32 := d.extractLsb' 8 32
  let length : Word32 := d.extractLsb' 40 32
  if reserved = 0 then
    match op with
    | .read => .read offset length
    | .write => .write offset length
    | .erase => .erase offset length
    | .sync => .sync offset length
  else .invalidRequest op reserved offset length

/-- The configuration port's decoder: every 8-bit descriptor is BIND, UNBIND or an INVALID_REQUEST (R84, R86, R92). -/
def decodeConfig (d : BitVec 8) : Instr :=
  let op := CfgOp.ofCode (d.extractLsb' 0 1)
  let variant : BitVec 2 := d.extractLsb' 1 2
  let reserved : BitVec 5 := d.extractLsb' 3 5
  if illegalConfig op variant reserved then .invalidConfig op variant reserved
  else
    match op with
    | .bind => .bind (.ofCode variant)
    | .unbind => .unbind

/-- The chip's decoder of the first byte of a transaction (R71, R192, R199). -/
def decodeCommand (b : Byte) : Except Reject Instr :=
  if b = readByte then .ok .cmdRead
  else if b = writeByte then .ok .cmdWrite
  else if b = wrenByte then .ok .cmdWren
  else .error .notACommand

/-- The phase of the block that a descriptor describes (R87). -/
def PhaseDesc.instr (d : PhaseDesc) : Except Reject Instr :=
  match d.framing, d.dir with
  | .csBeginEnd, .tx => if d.bits = 8 then .ok .phWren else .error .notAPhaseOfTheBlock
  | .csBegin, .tx => if d.bits = 8 then .ok .phCmd else .error .notAPhaseOfTheBlock
  | .csNone, .tx =>
    if d.bits = 16 then .ok .phAddr2 else if d.bits = 24 then .ok .phAddr3 else .error .notAPhaseOfTheBlock
  | .csEnd, .rx => .ok (.phDataRx d.bits)
  | .csEnd, .tx => .ok (.phDataTx d.bits)
  | .csEnd, .noData => if d.bits = 0 then .ok .phRelease else .error .notAPhaseOfTheBlock
  | _, _ => .error .notAPhaseOfTheBlock

/-- The decoder of the bus phase port (R76 to R78, R87). The word is an exact natural number (R82): a bit length of 2^32 or more,
which only a constructed state has, makes a word of more than 40 bits that decodes with its exact length, by the model's choice
(log entry 20). -/
def decodePhase (w : Nat) : Except Reject Instr :=
  if w / 4 % 4 = 3 then .error .reservedDirection
  else if w / 16 % 16 ≠ 0 then .error .reservedPhaseBits
  else if w / 256 % 8 ≠ 0 then .error .notWholeBytes
  else (PhaseDesc.ofWord w).instr

/-- The decoder of each port, on any number. -/
def decode (p : Port) (w : Nat) : Except Reject Instr :=
  match p with
  | .request => if w < 2 ^ 72 then .ok (decodeRequest (BitVec.ofNat 72 w)) else .error .tooWide
  | .config => if w < 256 then .ok (decodeConfig (BitVec.ofNat 8 w)) else .error .tooWide
  | .command => if w < 256 then decodeCommand (BitVec.ofNat 8 w) else .error .tooWide
  | .phase => decodePhase w

/-! ### Encoding -/

/-- A request descriptor: op 1:0, reserved 7:2, offset 39:8, length 71:40 (R79). -/
def requestWord (op : ReqOp) (reserved : BitVec 6) (offset length : Word32) : Nat :=
  op.code.toNat + 4 * reserved.toNat + 256 * offset.toNat + 1099511627776 * length.toNat

/-- A configuration descriptor: cfg_op 0, variant 2:1, reserved 7:3 (R84). -/
def configWord (op : CfgOp) (variant : BitVec 2) (reserved : BitVec 5) : Nat :=
  op.code.toNat + 2 * variant.toNat + 8 * reserved.toNat

/-- The port an instruction's word belongs to. -/
def Instr.port : Instr → Port
  | .read _ _ => .request
  | .write _ _ => .request
  | .erase _ _ => .request
  | .zfill _ _ => .request
  | .sync _ _ => .request
  | .invalidRequest _ _ _ _ => .request
  | .bind _ => .config
  | .unbind => .config
  | .invalidConfig _ _ _ => .config
  | .cmdRead => .command
  | .cmdWrite => .command
  | .cmdWren => .command
  | .phWren => .phase
  | .phCmd => .phase
  | .phAddr2 => .phase
  | .phAddr3 => .phase
  | .phDataRx _ => .phase
  | .phDataTx _ => .phase
  | .phRelease => .phase

/-- The word of an instruction on its port. -/
def encode : Instr → Nat
  | .read offset length => requestWord .read 0 offset length
  | .write offset length => requestWord .write 0 offset length
  | .erase offset length => requestWord .erase 0 offset length
  | .zfill offset length => requestWord .erase 0 offset length
  | .sync offset length => requestWord .sync 0 offset length
  | .invalidRequest op reserved offset length => requestWord op reserved offset length
  | .bind variant => configWord .bind variant.code 0
  | .unbind => configWord .unbind 0 0
  | .invalidConfig op variant reserved => configWord op variant reserved
  | .cmdRead => readByte.toNat
  | .cmdWrite => writeByte.toNat
  | .cmdWren => wrenByte.toNat
  | .phWren => PhaseDesc.word ⟨.csBeginEnd, .tx, 8⟩
  | .phCmd => PhaseDesc.word ⟨.csBegin, .tx, 8⟩
  | .phAddr2 => PhaseDesc.word ⟨.csNone, .tx, 16⟩
  | .phAddr3 => PhaseDesc.word ⟨.csNone, .tx, 24⟩
  | .phDataRx bits => PhaseDesc.word ⟨.csEnd, .rx, bits⟩
  | .phDataTx bits => PhaseDesc.word ⟨.csEnd, .tx, bits⟩
  | .phRelease => PhaseDesc.word ⟨.csEnd, .noData, 0⟩

/-- The name the decoder gives an instruction: ZFILL's descriptor is ERASE's (R91). -/
def Instr.canonical : Instr → Instr
  | .zfill offset length => .erase offset length
  | i => i

/-- How many bits a word of each format has (R71, R76, R79, R84). -/
def Port.width : Port → Nat
  | .request => 72
  | .config => 8
  | .command => 8
  | .phase => 40

/-! ### Words of the opcode table

The table gives a word without its port, and an 8-bit word can be a command byte, a configuration descriptor, or the
control byte of a longer descriptor whose other bits the row leaves open. The choice below is the model's
(DESIGN CHOICE, log entry 9); the machine itself always knows the port. -/

/-- The port a word of the opcode table is read on, from how many bits the row gives it. -/
def tablePort (nbits w : Nat) : Port :=
  if nbits ≤ 8 then
    if w = 0x03 ∨ w = 0x02 ∨ w = 0x06 then .command
    else if w = 0x0A then .phase
    else .config
  else if nbits ≤ 40 then .phase
  else .request

/-- The instruction the decoder reads from a word of the opcode table, bit 0 the least significant. -/
def decodeTableWord (nbits w : Nat) : Option Instr := (decode (tablePort nbits w) w).toOption

end Sys2Proof
end

