-- ==== Sys2Proof/Config.lean ====
section
/-!
DEFINITION. What an implementation or the environment fixes: the phase error policy's two values, the answers
the environment may give, and the FREE VALUES of the model. A free value is a constant with no body: nothing can
evaluate it, so a claim that is proved holds whatever it is. Each takes the number of the draw (the counter `draws`
of the state), so that two draws of one instance are unrelated. It takes no number of the instance: equally numbered draws of two
instances are the same value (log entry 24).
-/

namespace Sys2Proof

/-- `PHASE_ERROR_POLICY` (R9, R10): Abort is the default, Permissive reproduces the source's implementation. -/
inductive PhaseErrorPolicy where
  | abort
  | permissive
  deriving DecidableEq, Repr, Inhabited

/-- The bus engine's result of a phase, `res` (R14, R110). -/
inductive PhaseResult where
  | ok
  | busError
  deriving DecidableEq, Repr, Inhabited

/-- What the bus engine does when the block issues a phase. `silent`: it does not answer in this step (R123, U13).
`answered res rx`: it answers `res`; `rx` are bytes it returns for an RX phase where no chip drives them (U8, U6a). -/
inductive BusAnswer where
  | silent
  | answered (res : PhaseResult) (rx : List Byte)
  deriving DecidableEq, Repr, Inhabited

/-- The result of a call to the bus claim or the registry (R43): each draw is in {OK, Err}. -/
inductive CollabResult where
  | ok
  | err
  deriving DecidableEq, Repr, Inhabited

/-- Free value (U7, U13): the bus engine's answer to a phase for which the state lists none. -/
opaque Config.freeBusAnswer : Nat → BusAnswer

/-- Free value (U11): `claim_res` of `claim_bus()` when the state lists none. -/
opaque Config.freeClaim : Nat → CollabResult

/-- Free value (U11): `reg_res` or `unreg_res` when the state lists none. -/
opaque Config.freeRegistry : Nat → CollabResult

/-- Free value (U6a, U8, U9): byte i of a received payload that nothing determines. -/
opaque Config.freeRxByte : Nat → Nat → Byte

/-- Free value (U1, U3, U6a, U14): the array byte at an address, after the given draw. -/
opaque Config.freeArrayByte : Nat → Nat → Byte

/-- Free value (U2, U4, U5, U6a, U14): the chip's write-enable latch after the given draw. -/
opaque Config.freeWel : Nat → Bool

end Sys2Proof
end

