-- ==== Sys2Proof/Machine/State.lean ====
section
/-!
DEFINITION. The state of the machine as plain data: the block's state record (spec/10_state.md R20), the phase error
policy (R10), the chip (spec/44_mram_chip.md R191), and the model's own record of what the environment does and of what
the block has put on its ports. State.reset is the state of R240 with a chip at power-up (R200).
-/

namespace Sys2Proof.Machine

/-- `fsm`, the protocol state register, 3 bits (R26). Codes 6 and 7 are reserved and unreachable (R47). -/
inductive Fsm where
  | idle
  | wren
  | cmd
  | addr
  | data
  | abort
  | reserved6
  | reserved7
  deriving DecidableEq, Repr

/-- The completion statuses the block produces (R211). -/
inductive Status where
  | ok
  | unsupportedAddressWidth
  | busTransferFailure
  | outOfBounds
  | busClaimFailure
  | registryFailure
  | invalidRequest
  deriving DecidableEq, Repr

/-- GEOM_SIZE (R22) and GEOM_AW (R23). -/
structure Geometry where
  size : Word32
  aw : Byte
  deriving DecidableEq, Repr

/-- The request latches REQ_OP, REQ_OFFSET, REQ_LENGTH, REQ_DATA (R28 to R31). -/
structure ReqLatch where
  op : ReqOp
  offset : Word32
  length : Word32
  data : List Byte
  deriving DecidableEq, Repr

/-- The address latch ADDR_B0, ADDR_B1, ADDR_B2, ADDR_BITS (R32). -/
structure AddrLatch where
  b0 : Byte
  b1 : Byte
  b2 : Byte
  bits : BitVec 6
  deriving DecidableEq, Repr

/-- The response RESP_VALID, RESP_STATUS, RETLEN, RDATA (R33 to R36). -/
structure Response where
  valid : Bool
  status : BitVec 4
  retlen : Word32
  rdata : List Byte
  deriving DecidableEq, Repr

/-- The error record ERR_CFG, ERR_OP, ERR_PHASE, ERR_WIDTH, ERR_OFFSET, ERR_LENGTH (R37). -/
structure ErrorRecord where
  cfg : Bool
  op : BitVec 2
  phase : BitVec 3
  width : Byte
  offset : Word32
  length : Word32
  deriving DecidableEq, Repr

/-- What the phases of the chip's open transaction have met (R197). -/
inductive TxnHealth where
  /-- Every CMD and ADDR phase was answered OK. -/
  | clean
  /-- The latest phase was a CMD or ADDR phase answered BusError. -/
  | failed
  /-- A phase was issued after a CMD or ADDR phase answered BusError (R197 (f)). -/
  | continued
  deriving DecidableEq, Repr

/-- The chip (R191). -/
structure Chip where
  /-- The chip's own size and address width, once its first transaction has fixed them (R244, U15; log entry 5). -/
  geom : Option Geometry
  /-- ARRAY: the bytes that are known, addresses strictly rising; an unlisted byte has no value in the list and is the
  free value `Config.freeArrayByte base` of its address (R200). -/
  array : List Host.Cell
  /-- The draw that gives the array's unlisted bytes. -/
  base : Nat
  /-- WEL, the write-enable latch. -/
  wel : Bool
  /-- Whether a transaction is open. -/
  txnOpen : Bool
  /-- `txn`: the bytes received since chip-select was asserted; after a failed phase, the bytes the phase was to carry
  (log entry 27). -/
  txn : List Byte
  /-- How many data bytes are clocked out of the chip in the transaction. -/
  clocked : Nat
  /-- What the transaction's phases have met. -/
  health : TxnHealth
  /-- The data bytes the chip drove in its latest transaction (R193). -/
  out : List Byte
  deriving DecidableEq, Repr

/-- The registry entry: the descriptor outputs (R39, R178). -/
structure Entry where
  size : Word32
  wgran : Word32
  egran : Word32
  cls : BitVec 1
  deriving DecidableEq, Repr

/-- Events for the collaborators (R172, R175). -/
inductive CollabEvent where
  | claimBus
  | releaseBus
  | register (entry : Entry)
  | unregister (entry : Entry)
  deriving DecidableEq, Repr

/-- One phase as it went over the phase port (R45, R90): descriptor, transmitted bytes, the engine's answer, and for an
RX phase answered OK the received bytes. -/
structure PhaseRecord where
  desc : PhaseDesc
  tx : List Byte
  res : PhaseResult
  rx : List Byte
  deriving DecidableEq, Repr

/-- The registers and buffers of R40. -/
inductive Reg where
  | geomSize
  | geomAw
  | status
  | reqOp
  | reqOffset
  | reqLength
  | addrLatch
  | respStatus
  | retlen
  | errInfo
  | errOffset
  | errLength
  | descSize
  | descWgran
  | descEgran
  | descClass
  | reqData
  | rdata
  deriving DecidableEq, Repr

/-- What a register holds: 32 bits, or a buffer's bytes (R40). -/
inductive RegValue where
  | word (w : Word32)
  | bytes (b : List Byte)
  deriving DecidableEq, Repr

/-- One action of the environment (R258). -/
inductive EnvAction where
  /-- The host presents a request descriptor and, or not, write data (R42); it waits while BUSY (R250). -/
  | request (desc : BitVec 72) (wdata : Option (List Byte))
  /-- The host presents a configuration descriptor (R43); it waits while BUSY. -/
  | config (desc : BitVec 8)
  /-- The host reads a register (R41, R44), at any time. -/
  | readReg (r : Reg)
  /-- With the block idle, the chip is given one whole transaction, every phase answered OK: the bytes sent, and how many
  data bytes are clocked out after them (spec/95_test_vectors.md section 2.10). -/
  | wire (bytes : List Byte) (clocked : Nat)
  /-- The environment lets the block take one step. -/
  | pause
  /-- Reset (R240, R241), at any time. -/
  | reset
  /-- Power is lost and comes back, at any time: the array keeps its contents and WEL takes any value (R200; log entry 33). -/
  | powerCycle
  deriving DecidableEq, Repr

/-- Faults of the model (R230): states and inputs that have no meaning. Each is SAFE: the model stops where it says
nothing. -/
inductive Fault where
  /-- Raised in `fsm` 6 or 7 by the block's own step and by a host read (R47, F1; log entry 25). Safe. -/
  | reservedFsm
  /-- Raised by the bus engine on a phase of direction 3 (R78, F2). Safe. -/
  | reservedDirection
  /-- Raised by the bus engine on a Begin with chip-select asserted, or on any other framing with it de-asserted
  (R124, F2). Safe. -/
  | illegalFraming
  /-- Raised by the bus engine on a TX phase whose payload is not bits/8 bytes, or another phase with a payload
  (R110, R112). Safe. -/
  | payloadLength
  /-- Raised by a phase instruction in a state whose phase port does not carry it (R87, R141), and by the step in a busy
  state for which R87 gives no phase. Safe. -/
  | phaseNotIssued
  /-- Raised by the chip on a first byte other than 02, 03, 06, on a WREN transaction longer than one byte
  (R199, F3), and on a transaction with no byte (log entry 30). Safe. -/
  | unknownChipCommand
  /-- Raised by a chip command instruction when no open, undamaged transaction of the chip starts with that command byte
  (R192). Safe. -/
  | commandNotReceived
  /-- Raised by the chip on a data byte at or beyond GEOM_SIZE (R201, F4). Safe. -/
  | chipAddressBeyondArray
  /-- Raised by a host read of a response field while RESP_VALID = 0 (R41, F5). Safe. -/
  | responseNotValid
  /-- Raised by a host read of a RESP_STATUS of 7 to 15 (R211, E4). Safe. -/
  | reservedStatus
  deriving DecidableEq, Repr

/-- Refusals: what is presented is not taken. Each is SAFE. -/
inductive Refusal where
  /-- Raised by `exec` for an instruction that has no meaning yet. Safe. -/
  | notModelled (mnemonic : String)
  /-- Raised at the request port: a WRITE without write data (R42, F6). Safe. -/
  | wdataMissing
  /-- Raised at the request port: a WRITE whose write data are not `length` bytes (R42, F6). Safe. -/
  | wdataWrongLength
  /-- Raised at the request port: write data with an op other than WRITE (R42, F6). Safe. -/
  | wdataUnexpected
  /-- Raised by a request or configuration operation executed while BUSY = 1 (R250, F7); in a run the host waits instead.
  Safe. -/
  | busy
  /-- Raised by a phase when the attached chip's geometry is not the bound one (R244, U15). Safe. -/
  | chipMismatch
  /-- Raised by a chip command when no chip model is attached (R190). Safe. -/
  | noChipAttached
  /-- Raised by a host read of an internal register (R40). Safe. -/
  | internalRegister
  deriving DecidableEq, Repr

/-- The state. The first eight fields are the block's record (R20), then the policy, the chip, and the model's own
fields. -/
structure State where
  /-- GEOM_SIZE, GEOM_AW (R22, R23). -/
  geom : Geometry
  /-- BOUND (R24). -/
  bound : Bool
  /-- CS_ACTIVE (R25). -/
  csActive : Bool
  /-- fsm (R26). -/
  fsm : Fsm
  /-- REQ_* (R28 to R31). -/
  req : ReqLatch
  /-- ADDR_* (R32). -/
  addr : AddrLatch
  /-- RESP_VALID, RESP_STATUS, RETLEN, RDATA (R33 to R36). -/
  resp : Response
  /-- ERR_* (R37). -/
  err : ErrorRecord
  /-- PHASE_ERROR_POLICY (R10): no step writes it. -/
  policy : PhaseErrorPolicy
  /-- The chip model, when one is attached (R190). -/
  chip : Option Chip
  /-- A phase is outstanding: the block has issued the phase of its state, and the bus engine has not answered it
  (R123, R259; log entry 26). -/
  outstanding : Bool
  /-- The write-data lines of the request port while a request is presented (R42). -/
  wdata : Option (List Byte)
  /-- What the environment does next. -/
  agenda : List EnvAction
  /-- The bus engine's next answers (U7). -/
  busAnswers : List BusAnswer
  /-- The next answers of `claim_bus()` (U11). -/
  claimAnswers : List CollabResult
  /-- The next answers of `register` and `unregister`, in call order (U11). -/
  registryAnswers : List CollabResult
  /-- The number of the next draw: names the free values. -/
  draws : Nat
  /-- The phases issued so far, first first. -/
  trace : List PhaseRecord
  /-- The collaborator events so far, first first (R172). -/
  events : List CollabEvent
  deriving DecidableEq, Repr

/-- The chip at power-up (R200): no byte of the array is known, WEL is a free value, no transaction is open. -/
def Chip.powerUp : Chip :=
  { geom := none, array := [], base := 0, wel := Config.freeWel 0, txnOpen := false, txn := [], clocked := 0,
    health := .clean, out := [] }

/-- The machine right after reset (R240, R40), with a chip at power-up attached (R190, R200), policy Abort (R10), and an
environment of which nothing is listed. -/
def State.reset : State :=
  { geom := ⟨0, 0⟩, bound := false, csActive := false, fsm := .idle, req := ⟨.read, 0, 0, []⟩, addr := ⟨0, 0, 0, 0⟩,
    resp := ⟨false, 0, 0, []⟩, err := ⟨false, 0, 0, 0, 0, 0⟩, policy := .abort, chip := some Chip.powerUp,
    outstanding := false, wdata := none, agenda := [], busAnswers := [], claimAnswers := [], registryAnswers := [],
    draws := 1, trace := [], events := [] }

end Sys2Proof.Machine
end

