-- ==== Sys2Proof/Machine/Flags.lean ====
section
/-!
DEFINITION. The flags and derived outputs: codes of `fsm` and of the statuses, BUSY (R38), what a framing does to
chip-select (R113 to R117), the descriptor outputs (R39), the register words of R40, and the host's read of a register
(R41, R44).
-/

namespace Sys2Proof.Machine

/-- fsm codes (R26). -/
def Fsm.code : Fsm → BitVec 3
  | .idle => 0
  | .wren => 1
  | .cmd => 2
  | .addr => 3
  | .data => 4
  | .abort => 5
  | .reserved6 => 6
  | .reserved7 => 7

/-- Status codes (R211). -/
def Status.code : Status → BitVec 4
  | .ok => 0
  | .unsupportedAddressWidth => 1
  | .busTransferFailure => 2
  | .outOfBounds => 3
  | .busClaimFailure => 4
  | .registryFailure => 5
  | .invalidRequest => 6

/-- `fsm` holds a reserved code (R26, R47). -/
def Fsm.isReserved : Fsm → Bool
  | .idle => false
  | .wren => false
  | .cmd => false
  | .addr => false
  | .data => false
  | .abort => false
  | .reserved6 => true
  | .reserved7 => true

/-- BUSY = (fsm ≠ IDLE) (R38). -/
def State.busy (s : State) : Bool := s.fsm != .idle

/-- The Begin flag: the phase asserts chip-select before its first bit (R113). -/
def framingBegins : Framing → Bool
  | .csNone => false
  | .csBegin => true
  | .csEnd => false
  | .csBeginEnd => true

/-- The End flag: the phase de-asserts chip-select after its last bit (R114). -/
def framingEnds : Framing → Bool
  | .csNone => false
  | .csBegin => false
  | .csEnd => true
  | .csBeginEnd => true

/-- CS_ACTIVE after a phase depends only on its framing (R115). -/
def csAfter (f : Framing) : Bool := !framingEnds f

/-- The framings that are legal for CS_ACTIVE: Begin and BeginEnd while it is 0, None and End while it is 1 (R124). -/
def framingLegal (f : Framing) (csActive : Bool) : Bool := framingBegins f != csActive

/-- The chip-select wire, active-low: true is high, de-asserted (R46). -/
def State.csWire (s : State) : Bool := !s.csActive

/-- The chip-select wire while a phase's bits move: low, because every phase that moves bits runs inside a transaction
(R113, R116, R125). -/
def csWireDuring (f : Framing) (csActive : Bool) : Bool := !(framingBegins f || csActive)

/-- The descriptor outputs DESC_SIZE, DESC_WGRAN, DESC_EGRAN, DESC_CLASS: the registry entry (R39, R178). -/
def State.entry (s : State) : Entry := { size := s.geom.size, wgran := 1, egran := 1, cls := 1 }

/-- STATUS: BOUND, BUSY, CS_ACTIVE, RESP_VALID, fsm; its reserved bits read 0 (R40). -/
def State.statusWord (s : State) : Word32 :=
  (0#25 ++ s.fsm.code ++ BitVec.ofBool s.resp.valid ++ BitVec.ofBool s.csActive ++ BitVec.ofBool s.busy
    ++ BitVec.ofBool s.bound : BitVec 32)

/-- ADDR_LATCH (R40). -/
def AddrLatch.word (a : AddrLatch) : Word32 := (0#2 ++ a.bits ++ a.b2 ++ a.b1 ++ a.b0 : BitVec 32)

/-- ERR_INFO (R40). -/
def ErrorRecord.word (e : ErrorRecord) : Word32 :=
  (0#16 ++ e.width ++ 0#2 ++ BitVec.ofBool e.cfg ++ e.phase ++ e.op : BitVec 32)

/-- The number of a register in R40; the two buffers have none. -/
def Reg.number : Reg → Option Nat
  | .geomSize => some 0
  | .geomAw => some 1
  | .status => some 2
  | .reqOp => some 3
  | .reqOffset => some 4
  | .reqLength => some 5
  | .addrLatch => some 6
  | .respStatus => some 7
  | .retlen => some 8
  | .errInfo => some 9
  | .errOffset => some 10
  | .errLength => some 11
  | .descSize => some 12
  | .descWgran => some 13
  | .descEgran => some 14
  | .descClass => some 15
  | .reqData => none
  | .rdata => none

/-- What each register of R40 holds, zero-extended to 32 bits. -/
def State.reg (s : State) : Reg → RegValue
  | .geomSize => .word s.geom.size
  | .geomAw => .word (s.geom.aw.setWidth 32)
  | .status => .word s.statusWord
  | .reqOp => .word (s.req.op.code.setWidth 32)
  | .reqOffset => .word s.req.offset
  | .reqLength => .word s.req.length
  | .addrLatch => .word s.addr.word
  | .respStatus => .word (s.resp.status.setWidth 32)
  | .retlen => .word s.resp.retlen
  | .errInfo => .word s.err.word
  | .errOffset => .word s.err.offset
  | .errLength => .word s.err.length
  | .descSize => .word s.entry.size
  | .descWgran => .word s.entry.wgran
  | .descEgran => .word s.entry.egran
  | .descClass => .word (s.entry.cls.setWidth 32)
  | .reqData => .bytes s.req.data
  | .rdata => .bytes s.resp.rdata

/-- The internal registers, which the host cannot observe (R40). -/
def Reg.internal : Reg → Bool
  | .reqOp => true
  | .reqOffset => true
  | .reqLength => true
  | .addrLatch => true
  | .reqData => true
  | .geomSize => false
  | .geomAw => false
  | .status => false
  | .respStatus => false
  | .retlen => false
  | .errInfo => false
  | .errOffset => false
  | .errLength => false
  | .descSize => false
  | .descWgran => false
  | .descEgran => false
  | .descClass => false
  | .rdata => false

/-- The response fields, which carry meaning only while RESP_VALID = 1 (R41). -/
def Reg.response : Reg → Bool
  | .respStatus => true
  | .retlen => true
  | .errInfo => true
  | .errOffset => true
  | .errLength => true
  | .rdata => true
  | .geomSize => false
  | .geomAw => false
  | .status => false
  | .reqOp => false
  | .reqOffset => false
  | .reqLength => false
  | .addrLatch => false
  | .descSize => false
  | .descWgran => false
  | .descEgran => false
  | .descClass => false
  | .reqData => false

/-- The host's read of a register (R41, R44): it changes no state. In a reserved `fsm` state it faults (R47, R230; log entry
25). -/
def hostRead (r : Reg) (s : State) : Host.Outcome RegValue Fault Refusal :=
  if s.fsm.isReserved then .fault .reservedFsm
  else if r.internal then .refused .internalRegister
  else if r.response && !s.resp.valid then .fault .responseNotValid
  else if r == .respStatus && decide (6 < s.resp.status.toNat) then .fault .reservedStatus
  else .next (s.reg r)

end Sys2Proof.Machine
end

