-- ==== Sys2Proof/Machine/Operands.lean ====
section
/-!
DEFINITION. Operand forms: the address encoder (spec/40_address_encoder.md), the bounds check (R58), the request port's
data (R42, R83), the variant table (R174), and what each state of the block puts on the phase port (R87).
-/

namespace Sys2Proof.Machine

/-- `encode(offset, w)` (R101): the big-endian address bytes and their bit length, or the width that is not supported
(R102). -/
def encodeAddr (offset : Word32) (w : Byte) : Except Byte (List Byte × BitVec 6) :=
  if w = 3 then
    .ok ([(offset >>> 16).setWidth 8, (offset >>> 8).setWidth 8, offset.setWidth 8], 24)
  else if w = 2 then
    .ok ([(offset >>> 8).setWidth 8, offset.setWidth 8], 16)
  else .error w

/-- The address latch of an encoder's result: ADDR_B2 is 0 for two bytes (R32, R104). -/
def latchOf (bytes : List Byte) (bits : BitVec 6) : AddrLatch :=
  { b0 := bytes.getD 0 0, b1 := bytes.getD 1 0, b2 := bytes.getD 2 0, bits := bits }

/-- The value of a big-endian byte sequence: how the chip reads its address bytes (R52, R192). -/
def beNat (bytes : List Byte) : Nat := bytes.foldl (fun n b => 256 * n + b.toNat) 0

/-- `InBounds(off, len)`: the exact sum is at most GEOM_SIZE (R58). -/
def inBounds (offset length : Word32) (g : Geometry) : Bool :=
  decide (offset.toNat + length.toNat ≤ g.size.toNat)

/-- `VARIANT[v]` (R174). -/
def variantGeometry : Variant → Geometry
  | .mr25h128 => ⟨0x4000, 2⟩
  | .mr25h256 => ⟨0x8000, 2⟩
  | .mr25h10 => ⟨0x20000, 3⟩
  | .mr25h40 => ⟨0x80000, 3⟩

/-- REQ_DATA at acceptance: the host's data for WRITE, zeros for ERASE, nothing otherwise (R31, R131). -/
def reqData (op : ReqOp) (length : Word32) (wdata : Option (List Byte)) : List Byte :=
  match op with
  | .write => wdata.getD []
  | .erase => zeros length.toNat
  | .read => []
  | .sync => []

/-- Whether the request port takes a request: only in IDLE (R131), with exactly `length` bytes of write data for a WRITE
and none for another op (R42). -/
def portRefusal (op : ReqOp) (length : Word32) (s : State) : Option Refusal :=
  if s.busy then some .busy
  else
    match op, s.wdata with
    | .write, none => some .wdataMissing
    | .write, some d => if d.length = length.toNat then none else some .wdataWrongLength
    | _, none => none
    | _, some _ => some .wdataUnexpected

/-- The command byte of the CMD phase (R121). -/
def commandByte : ReqOp → Byte
  | .read => readByte
  | .write => writeByte
  | .erase => writeByte
  | .sync => readByte

/-- The descriptor of the phase that the block's next step issues (R87), with the exact bit length (R82). None in IDLE, in a
reserved state, and where the latches hold what no accepted request leaves. -/
def phaseDesc (s : State) : Option PhaseDesc :=
  match s.fsm, s.req.op with
  | .wren, .write => some ⟨.csBeginEnd, .tx, 8⟩
  | .wren, .erase => some ⟨.csBeginEnd, .tx, 8⟩
  | .cmd, .read => some ⟨.csBegin, .tx, 8⟩
  | .cmd, .write => some ⟨.csBegin, .tx, 8⟩
  | .cmd, .erase => some ⟨.csBegin, .tx, 8⟩
  | .addr, .read => addrDesc
  | .addr, .write => addrDesc
  | .addr, .erase => addrDesc
  | .data, .read => some ⟨.csEnd, .rx, 8 * s.req.length.toNat⟩
  | .data, .write => some ⟨.csEnd, .tx, 8 * s.req.length.toNat⟩
  | .data, .erase => some ⟨.csEnd, .tx, 8 * s.req.length.toNat⟩
  | .abort, _ => some ⟨.csEnd, .noData, 0⟩
  | _, _ => none
where
  /-- The ADDR phase moves ADDR_BITS bits, of 2 or 3 bytes by GEOM_AW (R144). -/
  addrDesc : Option PhaseDesc :=
    if s.geom.aw = 2 ∧ s.addr.bits = 16 then some ⟨.csNone, .tx, 16⟩
    else if s.geom.aw = 3 ∧ s.addr.bits = 24 then some ⟨.csNone, .tx, 24⟩
    else none

/-- The address bytes the ADDR phase transmits (R144). -/
def latchedBytes (s : State) : List Byte :=
  if s.geom.aw = 2 then [s.addr.b0, s.addr.b1] else [s.addr.b0, s.addr.b1, s.addr.b2]

/-- The bytes that the phase of the block's state transmits (R142 to R146). -/
def phasePayload (s : State) : List Byte :=
  match s.fsm with
  | .wren => [wrenByte]
  | .cmd => [commandByte s.req.op]
  | .addr => latchedBytes s
  | .data => s.req.data
  | .idle => []
  | .abort => []
  | .reserved6 => []
  | .reserved7 => []

/-- The word on the phase port (R76, R87). -/
def phaseWord (s : State) : Option Nat := (phaseDesc s).map PhaseDesc.word

/-- The `n` bytes of a received payload: the bytes that are given, then free values (R45; log entry 4). -/
def fitBytes (n draw : Nat) (given : List Byte) : List Byte :=
  (List.range n).map fun i => given.getD i (Config.freeRxByte draw i)

end Sys2Proof.Machine
end

