-- ==== Sys2Proof/Machine/Ops.lean ====
section
/-!
DEFINITION. The named operations on the state: the array's bytes, acceptance (R131, R171), completion (R140), the ONE
operation that ends an operation with an error (`raise`, R215: the block has no traps, R210, and needs no return, R222),
the start of a transfer (R132), and the draws from the environment.
-/

namespace Sys2Proof.Machine

/-! ### Bytes of the array: a list of (address, byte), addresses strictly rising -/

/-- The canonical form: addresses strictly rising, so that no address is listed twice. An unlisted address has no value in
the list, so no entry can equal what it reads as. -/
abbrev Memory.wf (m : List Host.Cell) : Prop := (m.map Prod.fst).Pairwise (· < ·)

/-- The byte listed at an address. -/
def Memory.read : List Host.Cell → Nat → Option Byte
  | [], _ => none
  | (x, b) :: m, a => if x = a then some b else Memory.read m a

/-- Store one byte. -/
def Memory.write : List Host.Cell → Nat → Byte → List Host.Cell
  | [], a, b => [(a, b)]
  | (x, c) :: m, a, b =>
    if a < x then (a, b) :: (x, c) :: m
    else if a = x then (a, b) :: m
    else (x, c) :: Memory.write m a b

/-- Store bytes at consecutive addresses (R194). -/
def Memory.writeBytes : List Host.Cell → Nat → List Byte → List Host.Cell
  | m, _, [] => m
  | m, a, b :: bs => Memory.writeBytes (Memory.write m a b) (a + 1) bs

/-! ### Completion and errors -/

/-- The response fields as acceptance leaves them (R131, R171). -/
def clearedResponse : Response := { valid := false, status := 0, retlen := 0, rdata := [] }

/-- The error record as acceptance leaves it (R131, R171). -/
def clearedError : ErrorRecord := { cfg := false, op := 0, phase := 0, width := 0, offset := 0, length := 0 }

/-- `complete(status, retlen, rdata)` (R140). -/
def complete (status : Status) (retlen : Word32) (rdata : List Byte) (s : State) : State :=
  { s with resp := { valid := true, status := status.code, retlen := retlen, rdata := rdata }, fsm := .idle }

/-- The error record that `raise` writes (R215): `cfg` is the configuration operation, absent for a request; ERR_PHASE is
what the phase rules wrote. -/
def errorRecord (e : Status) (cfg : Option CfgOp) (width : Byte) (s : State) : ErrorRecord :=
  { cfg := cfg.isSome
    op := match cfg with
      | some c => c.code.setWidth 2
      | none => s.req.op.code
    phase := s.err.phase
    width := if e = .unsupportedAddressWidth then width else 0
    offset := if cfg.isSome then 0 else s.req.offset
    length := if cfg.isSome then 0 else s.req.length }

/-- `raise E(width)` (R215, R210): record the error and complete with it. -/
def raise (e : Status) (cfg : Option CfgOp) (width : Byte) (s : State) : State :=
  complete e 0 [] { s with err := errorRecord e cfg width s }

/-- `ERR_PHASE <- n` (R142 to R145). -/
def setErrPhase (phase : Fsm) (s : State) : State := { s with err := { s.err with phase := phase.code } }

/-- `fsm <- S` (R13). -/
def goto (f : Fsm) (s : State) : State := { s with fsm := f }

/-! ### Acceptance -/

/-- Acceptance of a request (R131): the latches are written, the response and the error record cleared, and the write-data
lines are taken off the port. -/
def acceptRequest (op : ReqOp) (offset length : Word32) (s : State) : State :=
  { s with
    req := { op := op, offset := offset, length := length, data := reqData op length s.wdata }
    resp := clearedResponse
    err := clearedError
    wdata := none }

/-- Acceptance of a configuration operation (R171): the latches are left unchanged. -/
def acceptConfig (s : State) : State := { s with resp := clearedResponse, err := clearedError }

/-- The first phase's state (R132). -/
def firstPhase : ReqOp → Fsm
  | .read => .cmd
  | .write => .wren
  | .erase => .wren
  | .sync => .idle

/-- Validation and start of an accepted READ, WRITE or ERASE, from the address encoder on (R132, R220). -/
def startTransfer (s : State) : State :=
  match encodeAddr s.req.offset s.geom.aw with
  | .error w => raise .unsupportedAddressWidth none w s
  | .ok (bytes, bits) =>
    if inBounds s.req.offset s.req.length s.geom then
      { s with addr := latchOf bytes bits, fsm := firstPhase s.req.op }
    else raise .outOfBounds none 0 s

/-! ### Draws and events -/

/-- The bus engine's answer to the phase issued: the next of the list, or a free value. -/
def nextBusAnswer (s : State) : BusAnswer := s.busAnswers.headD (Config.freeBusAnswer s.draws)

/-- The bus engine has answered, or stayed silent: the answer is used up. -/
def takeBusAnswer (s : State) : State := { s with busAnswers := s.busAnswers.tail, draws := s.draws + 1 }

/-- The bus engine stays silent: the phase is outstanding, and the block, its chip-select and the chip are as before the phase
until it is answered (R123, R13; log entry 26). -/
def waitForBus (s : State) : State := { takeBusAnswer s with outstanding := true }

/-- The result of `claim_bus()`: the next of the list, or a free value. -/
def claimResult (s : State) : CollabResult := s.claimAnswers.headD (Config.freeClaim s.draws)

/-- `emit ClaimBus` and take its result (R172). -/
def claimBus (s : State) : State :=
  { s with claimAnswers := s.claimAnswers.tail, draws := s.draws + 1, events := s.events ++ [.claimBus] }

/-- The result of `register` or `unregister`: the next of the list, or a free value. -/
def registryResult (s : State) : CollabResult := s.registryAnswers.headD (Config.freeRegistry s.draws)

/-- `emit Register(entry)` and take its result (R172, R178). -/
def register (s : State) : State :=
  { s with registryAnswers := s.registryAnswers.tail, draws := s.draws + 1, events := s.events ++ [.register s.entry] }

/-- `emit Unregister(entry)` and take its result (R172, R175). -/
def unregister (s : State) : State :=
  { s with registryAnswers := s.registryAnswers.tail, draws := s.draws + 1, events := s.events ++ [.unregister s.entry] }

/-- `BOUND <- 0 ; GEOM_SIZE <- 0 ; GEOM_AW <- 0 ; emit ReleaseBus` (R172, R175). -/
def releaseDevice (s : State) : State :=
  { s with bound := false, geom := ⟨0, 0⟩, events := s.events ++ [.releaseBus] }

end Sys2Proof.Machine
end

