-- ==== Sys2Proof/Machine/Chip.lean ====
section
/-!
DEFINITION. The chip (spec/44_mram_chip.md): what it does with a transaction that starts with each command byte (R193 to
R199, R201), with failed and interrupted transactions (R197), and with one phase of the bus (R190 to R192).
-/

namespace Sys2Proof.Machine

/-- The byte the array holds: the listed one, or the free value of its address (R193, R200). -/
def Chip.byte (c : Chip) (a : Nat) : Byte := (Memory.read c.array a).getD (Config.freeArrayByte c.base a)

/-- The `n` bytes from address `a` on (R194). -/
def Chip.bytes (c : Chip) (a n : Nat) : List Byte := (List.range n).map fun i => c.byte (a + i)

/-- Chip-select is asserted: a transaction opens, with nothing received (R191). -/
def Chip.openTxn (c : Chip) : Chip :=
  { c with txnOpen := true, txn := [], clocked := 0, health := .clean, out := [] }

/-- Chip-select is de-asserted: the transaction is over. -/
def Chip.closeTxn (c : Chip) : Chip :=
  { c with txnOpen := false, txn := [], clocked := 0, health := .clean, out := [] }

/-- The address and the data bytes that follow a READ or WRITE command byte, when every address byte was received
(R192). -/
def splitAddress (g : Geometry) (rest : List Byte) : Option (Nat × List Byte) :=
  if rest.length < g.aw.toNat then none
  else some (beNat (rest.take g.aw.toNat), rest.drop g.aw.toNat)

/-- The data bytes lie inside the array; no data byte accesses no address (R201). -/
def dataInArray (g : Geometry) (a n : Nat) : Bool := n == 0 || decide (a + n ≤ g.size.toNat)

/-- READ (R193): the chip drives the array's bytes; ARRAY and WEL are unchanged. Before its last address byte the driven
bytes are free values (log entry 15). Bytes sent after the address are dropped: the first driven byte is that of the address,
and only driven bytes are held to the array (log entry 28). -/
def chipRead (g : Geometry) (draw : Nat) (rest : List Byte) (c : Chip) : Except Fault Chip :=
  match splitAddress g rest with
  | none => .ok { c.closeTxn with out := fitBytes c.clocked draw [] }
  | some (a, _) =>
    if dataInArray g a c.clocked then .ok { c.closeTxn with out := c.bytes a c.clocked }
    else .error .chipAddressBeyondArray

/-- WRITE at its End answered OK (R195, R196): with WEL = 1 the bytes are stored and WEL is cleared, with WEL = 0 nothing
changes. Before its last address byte ARRAY is unchanged and WEL has any value (R197 (a), (c); log entry 14). Clocking bytes out
of it drives nothing and changes nothing (log entry 29). -/
def chipWrite (g : Geometry) (draw : Nat) (rest : List Byte) (c : Chip) : Except Fault Chip :=
  match splitAddress g rest with
  | none => .ok { c.closeTxn with wel := Config.freeWel draw }
  | some (a, d) =>
    if dataInArray g a d.length then
      .ok (if c.wel then { c.closeTxn with array := Memory.writeBytes c.array a d, wel := false } else c.closeTxn)
    else .error .chipAddressBeyondArray

/-- WRITE_ENABLE, a transaction of one byte (R198); a longer one, by bytes sent or clocked out, has no meaning (R199). -/
def chipWren (_g : Geometry) (_draw : Nat) (rest : List Byte) (c : Chip) : Except Fault Chip :=
  if rest = [] ∧ c.clocked = 0 then .ok { c.closeTxn with wel := true } else .error .unknownChipCommand

/-- The chip acts on a whole transaction answered OK: its first byte is the command (R192). With no byte there is no command,
and the chip faults (log entry 30); a transaction that ends otherwise is not acted on (log entry 32). -/
def chipAct (g : Geometry) (draw : Nat) (c : Chip) : Except Fault Chip :=
  match c.txn with
  | [] => .error .unknownChipCommand
  | b :: rest =>
    if b = readByte then chipRead g draw rest c
    else if b = writeByte then chipWrite g draw rest c
    else if b = wrenByte then chipWren g draw rest c
    else .error .unknownChipCommand

/-- A transaction that ends before its last address byte (R197 (a), (c)): ARRAY is unchanged; WEL has any value after a
WRITE transaction. One that holds no byte, or starts with a byte that is neither READ nor WRITE (0x06 and whatever follows it
included), ends without a fault and leaves WEL as it is (log entry 32). The release phase ends every transaction so, whatever its phases met
(log entry 14). -/
def chipAbandon (draw : Nat) (c : Chip) : Chip :=
  match c.txn with
  | [] => c.closeTxn
  | b :: _ => if b = writeByte then { c.closeTxn with wel := Config.freeWel draw } else c.closeTxn

/-- The bytes from `a` on that lie in the array take any value, independently (R197 (b)). A target that runs past the array is
cut there, without a fault (log entry 31). -/
def chipSmear (g : Geometry) (draw a n : Nat) (c : Chip) : Chip :=
  { c with
    array := Memory.writeBytes c.array a
      ((List.range (min n (g.size.toNat - a))).map fun i => Config.freeArrayByte draw (a + i)) }

/-- A DATA phase of `n` bytes that failed (R197 (b), (c), (e)): the target bytes of a WRITE and WEL have any value; a READ
leaves both unchanged, without a fault also where its bytes run past the array (log entry 31). So does a transaction that holds no
byte, or starts with a byte that is neither READ nor WRITE (0x06 and whatever follows it included), without a fault (log entry
32). -/
def chipDataFailed (g : Geometry) (draw n : Nat) (c : Chip) : Chip :=
  match c.txn with
  | [] => c.closeTxn
  | b :: rest =>
    if b = writeByte then
      match splitAddress g rest with
      | none => chipAbandon draw c
      | some (a, _) => { (chipSmear g draw a n c).closeTxn with wel := Config.freeWel draw }
    else c.closeTxn

/-- A transaction that went on after a CMD or ADDR phase answered BusError (R197 (f)): every byte of ARRAY and WEL have any
value. -/
def chipScramble (draw : Nat) (c : Chip) : Chip :=
  { c.closeTxn with array := [], base := draw, wel := Config.freeWel draw }

/-- The health of the open transaction after a phase that does not end it (R197 (a), (f)). -/
def TxnHealth.after (h : TxnHealth) (res : PhaseResult) : TxnHealth :=
  match h, res with
  | .clean, .ok => .clean
  | .clean, .busError => .failed
  | .failed, _ => .continued
  | .continued, _ => .continued

/-- What one phase does to the chip (R190): its descriptor, its transmitted bytes, and the answer it was given. `txn` grows by the
transmitted bytes whatever the answer of a CMD or ADDR phase; what such a phase has met stands in `health` (log entry 27). -/
def chipPhase (g : Geometry) (draw : Nat) (d : PhaseDesc) (tx : List Byte) (res : PhaseResult) (c : Chip) :
    Except Fault Chip :=
  match d.framing, d.dir with
  | .csBeginEnd, _ =>
    match res with
    | .ok => chipAct g draw { c.openTxn with txn := tx }
    | .busError => .ok { c.closeTxn with wel := Config.freeWel draw }
  | .csBegin, _ => .ok { c.openTxn with txn := tx, health := TxnHealth.after .clean res }
  | .csNone, _ => .ok { c with txn := c.txn ++ tx, health := c.health.after res }
  | .csEnd, .noData => .ok (chipAbandon draw c)
  | .csEnd, _ =>
    if c.health = .clean then
      match res with
      | .ok => chipAct g draw { c with txn := c.txn ++ tx, clocked := if d.dir = .rx then d.bits / 8 else 0 }
      | .busError => .ok (chipDataFailed g draw (d.bits / 8) c)
    else .ok (chipScramble draw c)

/-- The bytes an RX phase receives: what the chip drove, when one is attached, the phase was answered OK and the
transaction was undamaged (R190, R193); otherwise what the bus engine gives (U6, U6a, U8). -/
def receivedBytes (draw : Nat) (d : PhaseDesc) (res : PhaseResult) (given : List Byte) (before after : Option Chip) :
    List Byte :=
  if d.dir = .rx then
    match before, after, res with
    | some c, some c', .ok =>
      if c.health = .clean then fitBytes (d.bits / 8) draw c'.out else fitBytes (d.bits / 8) draw given
    | _, _, _ => fitBytes (d.bits / 8) draw given
  else []

/-- The chip sees its open transaction end at a reset (R241, U14): R197 applies as to a failed phase. `n` is the length of
the request in progress. -/
def chipAtReset (g : Geometry) (draw n : Nat) (c : Chip) : Chip :=
  if c.txnOpen then
    match c.health with
    | .clean => chipDataFailed g draw n c
    | .failed => chipAbandon draw c
    | .continued => chipScramble draw c
  else c

end Sys2Proof.Machine
end

