-- ==== Sys2Proof/Machine/Bus.lean ====
section
/-!
DEFINITION. The phase (spec/41_command_transport.md R110): the block issues it, the bus engine checks it (R124) and answers
it, the chip sees it (R190), and the block goes on from the answer, all in one step (R111, R141).
-/

namespace Sys2Proof.Machine

/-- The geometry the chip goes by: its own, or the block's while its first transaction is still to come (log entry 5). -/
def chipGeometry (s : State) (c : Chip) : Geometry := c.geom.getD s.geom

/-- The attached chip is not the one the block is bound to (R244, U15). -/
def chipMismatch (s : State) : Bool :=
  match s.chip with
  | none => false
  | some c => chipGeometry s c != s.geom

/-- Why the bus engine has no meaning for a phase (R78, R110, R112, R124). -/
def phaseFault (d : PhaseDesc) (tx : List Byte) (s : State) : Option Fault :=
  if d.dir = .reserved then some .reservedDirection
  else if framingLegal d.framing s.csActive = false then some .illegalFraming
  else if tx.length ≠ (if d.dir = .tx then d.bits / 8 else 0) then some .payloadLength
  else none

/-- The chip's part of an answered phase. -/
def chipAfter (d : PhaseDesc) (tx : List Byte) (res : PhaseResult) (s : State) : Except Fault (Option Chip) :=
  match s.chip with
  | none => .ok none
  | some c =>
    match chipPhase (chipGeometry s c) s.draws d tx res { c with geom := some (chipGeometry s c) } with
    | .ok c' => .ok (some c')
    | .error f => .error f

/-- The state after an answered phase, before the block goes on: the answer is used up, CS_ACTIVE follows the framing whatever
the answer (R115), and the phase is on record. -/
def phaseDone (d : PhaseDesc) (tx : List Byte) (res : PhaseResult) (rx : List Byte) (chip : Option Chip) (s : State) :
    State :=
  { takeBusAnswer s with
    csActive := csAfter d.framing
    chip := chip
    outstanding := false
    trace := s.trace ++ [{ desc := d, tx := tx, res := res, rx := if res = .ok then rx else [] }] }

/-- The chip when the block is reset: a phase that is outstanding then has the effect of one answered BusError
(R241, R197; log entry 26). -/
def chipInterrupted (s : State) : Option Chip :=
  if s.outstanding then
    match phaseDesc s with
    | none => s.chip
    | some d =>
      match chipAfter d (phasePayload s) .busError s with
      | .ok chip => chip
      | .error _ => s.chip
  else s.chip

/-- Issue one phase and go on by `next` from the bus engine's answer. A silent bus engine leaves the block where it is, with
the phase outstanding (R123). -/
def issue (d : PhaseDesc) (tx : List Byte) (next : PhaseResult → List Byte → State → State) (s : State) :
    Host.Outcome State Fault Refusal :=
  match phaseFault d tx s with
  | some f => .fault f
  | none =>
    if chipMismatch s then .refused .chipMismatch
    else
      match nextBusAnswer s with
      | .silent => .next (waitForBus s)
      | .answered res given =>
        match chipAfter d tx res s with
        | .error f => .fault f
        | .ok chip =>
          let rx := receivedBytes s.draws d res given s.chip chip
          .next (next res rx (phaseDone d tx res rx chip s))

/-- A phase instruction runs only as the phase that the block's state puts on the phase port (R87, R141). -/
def inTurn (i : Instr) (s : State) (run : Host.Outcome State Fault Refusal) : Host.Outcome State Fault Refusal :=
  if phaseWord s = some (encode i) then run else .fault .phaseNotIssued

/-- The chip acts on its open transaction, whose command byte is `b` (R192). It goes by its own geometry once that is known, also
while the block is bound to another one, where only the block's phases are refused: the model's choice (log entry 35). -/
def chipCommand (b : Byte) (act : Geometry → Nat → List Byte → Chip → Except Fault Chip) (s : State) :
    Host.Outcome State Fault Refusal :=
  match s.chip with
  | none => .refused .noChipAttached
  | some c =>
    match c.txn with
    | [] => .fault .commandNotReceived
    | x :: rest =>
      if c.txnOpen = true ∧ c.health = .clean ∧ x = b then
        match act (chipGeometry s c) s.draws rest c with
        | .error f => .fault f
        | .ok c' => .next { s with chip := some c', draws := s.draws + 1 }
      else .fault .commandNotReceived

end Sys2Proof.Machine
end

