-- ==== Sys2Proof/Machine/ChipCommands.lean ====
section
/-!
DEFINITION. The chip's commands (spec/44_mram_chip.md): what the chip does with its open transaction when it starts with each
command byte and every phase of it was answered OK. The phases of Phases.lean reach the same chip through `chipAct`.
-/

namespace Sys2Proof.Machine

/-- CMD_READ 0x03 (R193). -/
def execCmdRead (s : State) : Host.Outcome State Fault Refusal := chipCommand readByte chipRead s

/-- CMD_WRITE 0x02 (R195, R196). -/
def execCmdWrite (s : State) : Host.Outcome State Fault Refusal := chipCommand writeByte chipWrite s

/-- CMD_WREN 0x06 (R198). -/
def execCmdWren (s : State) : Host.Outcome State Fault Refusal := chipCommand wrenByte chipWren s

end Sys2Proof.Machine
end

