-- ==== Sys2Proof/Machine/Configuration.lean ====
section
/-!
DEFINITION. The configuration operations (spec/43_configuration.md): BIND, UNBIND and INVALID_REQUEST. Each is accepted and
completed in one step and issues no bus phase (R170).
-/

namespace Sys2Proof.Machine

/-- BIND of a bound instance first performs UNBIND's state effect, its registry result ignored (R173). -/
def unbindFirst (s : State) : State := if s.bound then releaseDevice (unregister s) else s

/-- BIND from the bus claim on (R172): claim, load the geometry, register; a failure releases what was taken. -/
def claimAndRegister (v : Variant) (s : State) : State :=
  let claimed := claimBus s
  match claimResult s with
  | .err => raise .busClaimFailure (some .bind) 0 claimed
  | .ok =>
    let loaded := { claimed with geom := variantGeometry v }
    match registryResult loaded with
    | .err => raise .registryFailure (some .bind) 0 (releaseDevice (register loaded))
    | .ok => complete .ok 0 [] { register loaded with bound := true }

/-- UNBIND of a bound instance (R175): it is unbound whatever the registry answers. -/
def unbindBound (s : State) : State :=
  match registryResult s with
  | .err => raise .registryFailure (some .unbind) 0 (releaseDevice (unregister s))
  | .ok => complete .ok 0 [] (releaseDevice (unregister s))

/-- BIND (R172, R173). -/
def execBind (v : Variant) (s : State) : Host.Outcome State Fault Refusal :=
  if s.busy then .refused .busy
  else .next (claimAndRegister v (unbindFirst (acceptConfig s)))

/-- UNBIND (R175); while unbound it completes OK and changes nothing but the response fields (R176). -/
def execUnbind (s : State) : Host.Outcome State Fault Refusal :=
  if s.busy then .refused .busy
  else .next (if s.bound then unbindBound (acceptConfig s) else complete .ok 0 [] (acceptConfig s))

/-- An illegal configuration descriptor (R86, R171): accepted, and completed with INVALID_REQUEST. -/
def execInvalidConfig (op : CfgOp) (s : State) : Host.Outcome State Fault Refusal :=
  if s.busy then .refused .busy
  else .next (raise .invalidRequest (some op) 0 (acceptConfig s))

end Sys2Proof.Machine
end

