-- ==== Sys2Proof/Machine/Phases.lean ====
section
/-!
DEFINITION. The bus phases (spec/42_operations.md R141 to R147): each issues the phase of R87 for the block's state and moves
by the bus engine's answer, under Abort (R142 to R146) or Permissive (R147).
-/

namespace Sys2Proof.Machine

/-- The block goes on to the next phase: after OK, and under Permissive after any answer (R142 to R144, R147). -/
def goesOn (res : PhaseResult) (s : State) : Bool := res == .ok || s.policy == .permissive

/-- `raise BUS_TRANSFER_FAILURE()` (R213). -/
def raiseBusFailure (s : State) : State := raise .busTransferFailure none 0 s

/-- After the WREN phase (R142, R147). -/
def afterWren (res : PhaseResult) (_ : List Byte) (s : State) : State :=
  if goesOn res s then goto .cmd s else raiseBusFailure (setErrPhase .wren s)

/-- After the CMD phase (R143, R147). -/
def afterCmd (res : PhaseResult) (_ : List Byte) (s : State) : State :=
  if goesOn res s then goto .addr s else goto .abort (setErrPhase .cmd s)

/-- After the ADDR phase (R144, R147). -/
def afterAddr (res : PhaseResult) (_ : List Byte) (s : State) : State :=
  if goesOn res s then goto .data s else goto .abort (setErrPhase .addr s)

/-- After a READ's DATA phase, under either policy (R145): the bytes received, or the failure with the bytes discarded. -/
def afterDataRx (res : PhaseResult) (rx : List Byte) (s : State) : State :=
  match res with
  | .ok => complete .ok s.req.length rx s
  | .busError => raiseBusFailure (setErrPhase .data s)

/-- After the DATA phase of a WRITE or ERASE, under either policy (R145). -/
def afterDataTx (res : PhaseResult) (_ : List Byte) (s : State) : State :=
  match res with
  | .ok => complete .ok s.req.length [] s
  | .busError => raiseBusFailure (setErrPhase .data s)

/-- After the release phase, whatever its answer (R146). -/
def afterRelease (_ : PhaseResult) (_ : List Byte) (s : State) : State := raiseBusFailure s

/-- PH_WREN (R142): `Phase(BeginEnd, TX, 8, [0x06])`. -/
def execPhWren (s : State) : Host.Outcome State Fault Refusal :=
  inTurn .phWren s (issue ⟨.csBeginEnd, .tx, 8⟩ [wrenByte] afterWren s)

/-- PH_CMD (R143): `Phase(Begin, TX, 8, [cmd])`. -/
def execPhCmd (s : State) : Host.Outcome State Fault Refusal :=
  inTurn .phCmd s (issue ⟨.csBegin, .tx, 8⟩ [commandByte s.req.op] afterCmd s)

/-- PH_ADDR2 (R144): `Phase(None, TX, ADDR_BITS, [ADDR_B0, ADDR_B1])`. -/
def execPhAddr2 (s : State) : Host.Outcome State Fault Refusal :=
  inTurn .phAddr2 s (issue ⟨.csNone, .tx, s.addr.bits.toNat⟩ [s.addr.b0, s.addr.b1] afterAddr s)

/-- PH_ADDR3 (R144): `Phase(None, TX, ADDR_BITS, [ADDR_B0, ADDR_B1, ADDR_B2])`. -/
def execPhAddr3 (s : State) : Host.Outcome State Fault Refusal :=
  inTurn .phAddr3 s (issue ⟨.csNone, .tx, s.addr.bits.toNat⟩ [s.addr.b0, s.addr.b1, s.addr.b2] afterAddr s)

/-- PH_DATA_RX (R145): `Phase(End, RX, 8n, absent)`. -/
def execPhDataRx (bits : Nat) (s : State) : Host.Outcome State Fault Refusal :=
  inTurn (.phDataRx bits) s (issue ⟨.csEnd, .rx, bits⟩ [] afterDataRx s)

/-- PH_DATA_TX (R145): `Phase(End, TX, 8n, REQ_DATA)`. -/
def execPhDataTx (bits : Nat) (s : State) : Host.Outcome State Fault Refusal :=
  inTurn (.phDataTx bits) s (issue ⟨.csEnd, .tx, bits⟩ s.req.data afterDataTx s)

/-- PH_RELEASE (R146, R118): `Phase(End, NONE, 0, absent)`. -/
def execPhRelease (s : State) : Host.Outcome State Fault Refusal :=
  inTurn .phRelease s (issue ⟨.csEnd, .noData, 0⟩ [] afterRelease s)

end Sys2Proof.Machine
end

