-- ==== Sys2Proof/Machine/Requests.lean ====
section
/-!
DEFINITION. The request operations (spec/42_operations.md): READ, WRITE, ERASE, ZFILL, SYNC and INVALID_REQUEST. Each is
accepted in one step, which validates it and either completes it or sets the first phase; the phases are later steps.
-/

namespace Sys2Proof.Machine

/-- READ (R150): accept, validate, and start at CMD. -/
def execRead (offset length : Word32) (s : State) : Host.Outcome State Fault Refusal :=
  match portRefusal .read length s with
  | some r => .refused r
  | none => .next (startTransfer (acceptRequest .read offset length s))

/-- WRITE (R152): accept with its data, validate, and start at WREN. -/
def execWrite (offset length : Word32) (s : State) : Host.Outcome State Fault Refusal :=
  match portRefusal .write length s with
  | some r => .refused r
  | none => .next (startTransfer (acceptRequest .write offset length s))

/-- ERASE (R156): a WRITE of zeros that the block generates. -/
def execErase (offset length : Word32) (s : State) : Host.Outcome State Fault Refusal :=
  match portRefusal .erase length s with
  | some r => .refused r
  | none => .next (startTransfer (acceptRequest .erase offset length s))

/-- ZFILL (R91): the same request as ERASE. -/
def execZfill (offset length : Word32) (s : State) : Host.Outcome State Fault Refusal :=
  match portRefusal .erase length s with
  | some r => .refused r
  | none => .next (startTransfer (acceptRequest .erase offset length s))

/-- SYNC (R160): accepted and completed in one step, without the encoder and without a phase. -/
def execSync (offset length : Word32) (s : State) : Host.Outcome State Fault Refusal :=
  match portRefusal .sync length s with
  | some r => .refused r
  | none => .next (complete .ok 0 [] (acceptRequest .sync offset length s))

/-- A request descriptor with a reserved bit set (R81, R132): accepted, and completed with INVALID_REQUEST. -/
def execInvalidRequest (op : ReqOp) (offset length : Word32) (s : State) : Host.Outcome State Fault Refusal :=
  match portRefusal op length s with
  | some r => .refused r
  | none => .next (raise .invalidRequest none 0 (acceptRequest op offset length s))

end Sys2Proof.Machine
end

