-- ==== Sys2Proof/Machine/Dispatch.lean ====
section
/-!
DEFINITION. One arm per instruction: each is one call of its meaning.
-/

namespace Sys2Proof.Machine

def exec (i : Instr) (s : State) : Host.Outcome State Fault Refusal :=
  match i with
  -- requests (spec/42_operations.md)
  | .read offset length => Sys2Proof.Machine.execRead offset length s
  | .write offset length => Sys2Proof.Machine.execWrite offset length s
  | .erase offset length => Sys2Proof.Machine.execErase offset length s
  | .zfill offset length => Sys2Proof.Machine.execZfill offset length s
  | .sync offset length => Sys2Proof.Machine.execSync offset length s
  | .invalidRequest op _ offset length => Sys2Proof.Machine.execInvalidRequest op offset length s
  -- configuration operations (spec/43_configuration.md)
  | .bind variant => Sys2Proof.Machine.execBind variant s
  | .unbind => Sys2Proof.Machine.execUnbind s
  | .invalidConfig op _ _ => Sys2Proof.Machine.execInvalidConfig op s
  -- chip commands (spec/44_mram_chip.md)
  | .cmdRead => Sys2Proof.Machine.execCmdRead s
  | .cmdWrite => Sys2Proof.Machine.execCmdWrite s
  | .cmdWren => Sys2Proof.Machine.execCmdWren s
  -- bus phases (spec/42_operations.md R141 to R147)
  | .phWren => Sys2Proof.Machine.execPhWren s
  | .phCmd => Sys2Proof.Machine.execPhCmd s
  | .phAddr2 => Sys2Proof.Machine.execPhAddr2 s
  | .phAddr3 => Sys2Proof.Machine.execPhAddr3 s
  | .phDataRx bits => Sys2Proof.Machine.execPhDataRx bits s
  | .phDataTx bits => Sys2Proof.Machine.execPhDataTx bits s
  | .phRelease => Sys2Proof.Machine.execPhRelease s

end Sys2Proof.Machine
end

