-- ==== Sys2Proof/Machine/Fetch.lean ====
section
/-!
DEFINITION. What the machine does next (R7, R8, R141): the environment's action, or the block's phase. The block has no
program counter (R27): a request or configuration word comes from the agenda, a phase word from the state of the block, a
command byte from the chip's transaction. Also reset (R240, R241), and placing one word of the opcode table.
-/

namespace Sys2Proof.Machine

/-- What a step finds: an instruction to run in a state, or an outcome without one. -/
inductive Fetched where
  | run (i : Instr) (s : State)
  | done (o : Host.Outcome State Fault Refusal)

/-- The block's own move: in IDLE none; otherwise the phase whose word its state puts on the phase port (R87, R141). -/
def fetchPhase (s : State) : Fetched :=
  match s.fsm with
  | .idle => .done (.next s)
  | .reserved6 => .done (.fault .reservedFsm)
  | .reserved7 => .done (.fault .reservedFsm)
  | .wren | .cmd | .addr | .data | .abort =>
    match phaseWord s with
    | none => .done (.fault .phaseNotIssued)
    | some w =>
      match decodePhase w with
      | .ok i => .run i s
      | .error _ => .done (.fault .phaseNotIssued)

/-- The chip is given a whole transaction while the block is idle; its first byte is the command (R192). With no byte there is
no command, and the chip faults (log entry 30). The block has no part in it, so a chip whose known geometry differs from the bound
one is not refused (log entry 35). -/
def fetchWire (bytes : List Byte) (clocked : Nat) (s : State) : Fetched :=
  match s.chip, bytes with
  | none, _ => .done (.refused .noChipAttached)
  | some _, [] => .done (.fault .unknownChipCommand)
  | some c, b :: _ =>
    match decodeCommand b with
    | .ok i => .run i { s with chip := some { c.openTxn with txn := bytes, clocked := clocked } }
    | .error _ => .done (.fault .unknownChipCommand)

/-- Reset (R240, R241): the block's record is reset, a request in progress is abandoned, the chip sees an outstanding phase fail
and an open transaction end, by the chip's own geometry (log entry 35). The policy, the environment's lists and the records of the
past stay (log entry 8). BOUND is cleared without a collaborator event: a reset neither releases the bus nor unregisters the entry,
by the model's choice (log entry 34). -/
def resetBlock (s : State) : State :=
  { State.reset with
    policy := s.policy
    chip := (chipInterrupted s).map fun c => chipAtReset (chipGeometry s c) s.draws s.req.length.toNat c
    agenda := s.agenda
    busAnswers := s.busAnswers
    claimAnswers := s.claimAnswers
    registryAnswers := s.registryAnswers
    draws := s.draws + 1
    trace := s.trace
    events := s.events }

/-- Power is lost and comes back (R200): the block and the open transaction end as at a reset, the array keeps its contents, and
WEL takes any value (log entry 33). As at a reset, no collaborator event is emitted (log entry 34). -/
def cyclePower (s : State) : State :=
  let t := resetBlock s
  { t with chip := t.chip.map fun c => { c with wel := Config.freeWel s.draws } }

/-- The host's read of a register as a step: it changes no state (R41). -/
def readStep (r : Reg) (rest : List EnvAction) (s : State) : Host.Outcome State Fault Refusal :=
  match hostRead r s with
  | .next _ => .next { s with agenda := rest }
  | .fault f => .fault f
  | .refused e => .refused e

/-- What the next step does. Requests, configuration operations and whole chip transactions wait while BUSY (R250); register
reads, reset and a power cycle do not. In a reserved `fsm` state a reset and a power cycle act and everything else faults
(R47; log entry 25). -/
def fetch (s : State) : Fetched :=
  match s.agenda with
  | [] => fetchPhase s
  | .pause :: rest => fetchPhase { s with agenda := rest }
  | .reset :: rest => .done (.next (resetBlock { s with agenda := rest }))
  | .powerCycle :: rest => .done (.next (cyclePower { s with agenda := rest }))
  | .readReg r :: rest => .done (readStep r rest s)
  | .request d w :: rest =>
    if s.busy then fetchPhase s else .run (decodeRequest d) { s with agenda := rest, wdata := w }
  | .config d :: rest =>
    if s.busy then fetchPhase s else .run (decodeConfig d) { s with agenda := rest }
  | .wire bytes clocked :: rest =>
    if s.busy then fetchPhase s else fetchWire bytes clocked { s with agenda := rest }

/-! ### Placing one word of the opcode table -/

/-- The state with an action of the environment next and the block ready for it. -/
def placeAction (a : EnvAction) (s : State) : State :=
  { s with fsm := .idle, csActive := false, agenda := a :: s.agenda }

/-- The write data that go with a request word: zeros for op WRITE (R42). -/
def placedData (d : BitVec 72) : Option (List Byte) :=
  match ReqOp.ofCode (d.extractLsb' 0 2) with
  | .write => some (zeros (d.extractLsb' 40 32).toNat)
  | .read => none
  | .erase => none
  | .sync => none

/-- The address bytes of zeros that go with a command byte: none for WRITE_ENABLE (R192, R198). -/
def placedAddress (b : Byte) (s : State) : List Byte :=
  if b = wrenByte then []
  else zeros ((s.chip.getD Chip.powerUp).geom.getD s.geom).aw.toNat

/-- The state in which the block's next step issues a phase: bound, the latches as an accepted request at offset 0 leaves
them, the chip's transaction as the earlier phases leave it, and the bus engine about to answer OK. -/
def placeState (v : Variant) (f : Fsm) (cs : Bool) (req : ReqLatch) (bits : BitVec 6) (txn : List Byte) (h : TxnHealth)
    (s : State) : State :=
  { s with
    geom := variantGeometry v
    bound := true
    csActive := cs
    fsm := f
    req := req
    addr := ⟨0, 0, 0, bits⟩
    chip := s.chip.map fun c =>
      { c with geom := some (variantGeometry v), txnOpen := cs, txn := txn, health := h, clocked := 0, out := [] }
    agenda := .pause :: s.agenda
    busAnswers := .answered .ok [] :: s.busAnswers }

/-- The state in which the block's next step issues the given phase. -/
def placePhase (i : Instr) (s : State) : State :=
  match i with
  | .phWren => placeState .mr25h40 .wren false ⟨.write, 0, 0, []⟩ 24 [] .clean s
  | .phCmd => placeState .mr25h40 .cmd false ⟨.read, 0, 0, []⟩ 24 [] .clean s
  | .phAddr2 => placeState .mr25h256 .addr true ⟨.read, 0, 0, []⟩ 16 [readByte] .clean s
  | .phAddr3 => placeState .mr25h40 .addr true ⟨.read, 0, 0, []⟩ 24 [readByte] .clean s
  | .phDataRx n => placeState .mr25h40 .data true ⟨.read, 0, BitVec.ofNat 32 (n / 8), []⟩ 24 [readByte, 0, 0, 0] .clean s
  | .phDataTx n =>
    placeState .mr25h40 .data true ⟨.write, 0, BitVec.ofNat 32 (n / 8), zeros (n / 8)⟩ 24 [writeByte, 0, 0, 0] .clean s
  | .phRelease => placeState .mr25h40 .abort true ⟨.read, 0, 0, []⟩ 24 [readByte] .failed s
  | _ => s

/-- The state with one word of the opcode table where the next step finds its instruction. -/
def placeWord (nbits w : Nat) (s : State) : State :=
  match tablePort nbits w with
  | .request => placeAction (.request (BitVec.ofNat 72 w) (placedData (BitVec.ofNat 72 w))) s
  | .config => placeAction (.config (BitVec.ofNat 8 w)) s
  | .command =>
    placeAction (.wire (BitVec.ofNat 8 w :: placedAddress (BitVec.ofNat 8 w) s) 0)
      { s with chip := some (s.chip.getD Chip.powerUp) }
  | .phase =>
    match decodePhase w with
    | .ok i => placePhase i s
    | .error _ => s

end Sys2Proof.Machine
end

