-- ==== Sys2Proof/Machine/Instances.lean ====
section
/-!
DEFINITION. Several block instances (R48, R69, R227): each has its own state and its own chip, and one of them steps at a
time. Their number is the parameter N_INSTANCES (R9): the length of the list. The free values are numbered by each instance's
own counters, so two instances at equal counters (two at State.reset) draw equal values; this is the model's choice (log entry
24).
-/

namespace Sys2Proof.Machine

/-- The instances of a system. That equally numbered draws of two instances are equal is the model's choice (log entry 24). -/
abbrev System := List State

/-- Instance `k` takes one step, with its own draws (log entry 24); with no such instance nothing happens. -/
def stepInstance (k : Nat) (sys : System) : Host.Outcome System Fault Refusal :=
  match sys[k]? with
  | none => .next sys
  | some s =>
    match step s with
    | .next s' => .next (sys.set k s')
    | .fault f => .fault f
    | .refused r => .refused r

end Sys2Proof.Machine
end

