-- ==== Sys2Proof/Safety.lean ====
section
/-!
DEFINITION. What counts as a safe state, in the terms the claims use: the reachable-state invariants of R47, the facts about
an accepted request and about the chip's open transaction that every step keeps, and when an operation is well presented.
-/

namespace Sys2Proof.Machine

/-- A row of the variant table (R3, R174). -/
abbrev isVariant (g : Geometry) : Prop :=
  g = variantGeometry .mr25h128 ∨ g = variantGeometry .mr25h256 ∨ g = variantGeometry .mr25h10 ∨
    g = variantGeometry .mr25h40

/-- R47, first four points: `fsm` holds no reserved code, and CS_ACTIVE follows it. A phase is outstanding only while BUSY
(R259). -/
abbrev SelectInv (s : State) : Prop :=
  s.fsm ≠ .reserved6 ∧ s.fsm ≠ .reserved7 ∧
  (s.fsm = .idle → s.csActive = false) ∧
  (s.fsm = .wren ∨ s.fsm = .cmd → s.csActive = false) ∧
  (s.fsm = .addr ∨ s.fsm = .data ∨ s.fsm = .abort → s.csActive = true) ∧
  (s.outstanding = true → s.fsm ≠ .idle)

/-- R47, last two points: the geometry is a row of the table while bound, and 0 while unbound. -/
abbrev GeometryInv (s : State) : Prop :=
  (s.bound = true → isVariant s.geom) ∧ (s.bound = false → s.geom = ⟨0, 0⟩)

/-- The address latch holds the encoder's output for the request (R32, R104). -/
def latchMatches (s : State) : Bool :=
  match encodeAddr s.req.offset s.geom.aw with
  | .ok (bytes, bits) => s.addr == latchOf bytes bits
  | .error _ => false

/-- How many bytes REQ_DATA holds (R31). -/
def dataCount (r : ReqLatch) : Nat :=
  match r.op with
  | .read => 0
  | .write => r.length.toNat
  | .erase => r.length.toNat
  | .sync => 0

/-- While BUSY the latches hold a READ, WRITE or ERASE that passed validation (R131, R132). -/
abbrev RequestInv (s : State) : Prop :=
  s.fsm ≠ .idle →
    s.bound = true ∧ s.req.op ≠ .sync ∧ (s.fsm = .wren → s.req.op ≠ .read) ∧ latchMatches s = true ∧
    s.req.offset.toNat + s.req.length.toNat ≤ s.geom.size.toNat ∧ s.req.data.length = dataCount s.req

/-- The chip's open transaction is the one the block has issued (R191, R192): it is open exactly while CS_ACTIVE, the chip is
then the bound one, and it has received the command byte, and after an undamaged ADDR phase the address. -/
abbrev ChipOk (s : State) (c : Chip) : Prop :=
  Memory.wf c.array ∧ c.txnOpen = s.csActive ∧
  (s.csActive = true → c.geom = some s.geom) ∧
  (s.fsm = .addr → c.health ≠ .continued ∧ c.txn = [commandByte s.req.op]) ∧
  (s.fsm = .data → c.health = .clean → c.txn = commandByte s.req.op :: latchedBytes s) ∧
  (s.fsm = .abort → c.health ≠ .clean)

/-- The invariant that every step keeps. -/
abbrev StateInv (s : State) : Prop :=
  SelectInv s ∧ GeometryInv s ∧ RequestInv s ∧ ∀ c ∈ s.chip, ChipOk s c

/-- The attached chip, if there is one, is the bound variant or has not been reached yet (R244, U15). -/
abbrev ChipFits (s : State) : Prop := ∀ c ∈ s.chip, c.geom = none ∨ c.geom = some s.geom

/-- The block is idle and the request port carries a well-formed request of this op and length, whose data phase will carry
`d` (R31, R42, R131). -/
def Presents (op : ReqOp) (length : Word32) (d : List Byte) (s : State) : Prop :=
  s.fsm = .idle ∧
    match op with
    | .read => s.wdata = none ∧ d = []
    | .write => s.wdata = some d ∧ d.length = length.toNat
    | .erase => s.wdata = none ∧ d = zeros length.toNat
    | .sync => s.wdata = none ∧ d = []

/-- The instructions that transfer data: READ, WRITE, ERASE and its second name ZFILL. -/
def Transfers (op : ReqOp) (offset length : Word32) (i : Instr) : Prop :=
  match op with
  | .read => i = .read offset length
  | .write => i = .write offset length
  | .erase => i = .erase offset length ∨ i = .zfill offset length
  | .sync => False

/-- The next `n` phases are all answered OK. -/
def AnswersOk (n : Nat) (s : State) : Prop :=
  n ≤ s.busAnswers.length ∧ ∀ a ∈ s.busAnswers.take n, ∃ rx, a = .answered .ok rx

/-- Weak fairness for `n` phases (R123): among the answers to come there are `n` that are OK or BusError, with any number of
steps of silence before each. -/
def Answers (n : Nat) (s : State) : Prop := n ≤ (s.busAnswers.filter (· != .silent)).length

end Sys2Proof.Machine
end

