-- ==== Sys2Proof/Certificates/Slice0/Obligations.lean ====
section
/-!
DEFINITION. The statements for the provers, by the rules of spec/. Each is about every state its hypotheses admit, whether or
not a run reaches it. Statements that name a whole next state also name the model's own fields: the counter `draws` of the free
values (log entry 3), the lists of answers (log entry 4), the chip's known geometry (log entry 5), the agenda and the
write-data lines (log entry 6), the records `trace` and `events` (log entry 7), and whether a phase is outstanding (log entry
26).
-/

open Sys2Proof Sys2Proof.Machine

/-! ### Reset -/

/-- R240: at reset every field of the block's record takes its reset value, and the chip-select wire is high. -/
def Obligations.ResetLeavesTheStatedRecord : Prop :=
  State.reset.geom = ⟨0, 0⟩ ∧ State.reset.bound = false ∧ State.reset.csActive = false ∧ State.reset.fsm = .idle ∧
    State.reset.req = ⟨.read, 0, 0, []⟩ ∧ State.reset.addr = ⟨0, 0, 0, 0⟩ ∧ State.reset.resp = ⟨false, 0, 0, []⟩ ∧
    State.reset.err = ⟨false, 0, 0, 0, 0, 0⟩ ∧ State.reset.csWire = true

/-- R241: a reset presented between any two steps abandons a request in progress: the block's record takes its reset values, so
RESP_VALID = 0, and no phase is issued. That the policy stays is the model's choice (log entry 8). -/
def Obligations.ResetAbandonsTheRequest : Prop :=
  ∀ (s : State) (rest : List EnvAction), s.agenda = .reset :: rest →
    ∃ t, step s = .next t ∧
      t.geom = ⟨0, 0⟩ ∧ t.bound = false ∧ t.csActive = false ∧ t.fsm = .idle ∧ t.req = ⟨.read, 0, 0, []⟩ ∧
      t.addr = ⟨0, 0, 0, 0⟩ ∧ t.resp = ⟨false, 0, 0, []⟩ ∧ t.err = ⟨false, 0, 0, 0, 0, 0⟩ ∧ t.csWire = true ∧
      t.trace = s.trace ∧ t.policy = s.policy ∧ t.agenda = rest

/-- R241, R197, R200: at a reset the chip sees its open transaction end. With no phase outstanding: a chip with no open
transaction is unchanged; one whose latest phase was a failed CMD or ADDR phase keeps its array; so does an undamaged WRITE whose
address is not complete; with the whole address only the target bytes may change; a READ changes neither array nor latch; a
transaction that went on after a failed phase leaves any array and latch. An outstanding phase counts as one answered BusError. A
power cycle is such a reset after which the latch has any value. Which bytes survive is the model's reading of R241 and U14, and
holds no further (log entry 8); that an outstanding phase fails, and that a power cycle resets the block, are its choices too (log
entries 26 and 33), and so is that a chip whose geometry is known goes by it (log entry 35). -/
def Obligations.ResetEndsTheOpenTransaction : Prop :=
  (∀ (s : State) (rest : List EnvAction) (c : Chip), s.agenda = .reset :: rest → s.chip = some c →
    ∃ t c', step s = .next t ∧ t.chip = some c' ∧ c'.txnOpen = false ∧ t.outstanding = false ∧
      (s.outstanding = false →
        (c.txnOpen = false → c' = c) ∧
        (c.txnOpen = true → c.health = .failed → ∀ x, c'.byte x = c.byte x) ∧
        (c.txnOpen = true → c.health = .clean → ∀ bytes, c.txn = writeByte :: bytes →
          bytes.length < (c.geom.getD s.geom).aw.toNat → ∀ x, c'.byte x = c.byte x) ∧
        (c.txnOpen = true → c.health = .clean → ∀ bytes, c.txn = writeByte :: bytes →
          bytes.length = (c.geom.getD s.geom).aw.toNat →
          ∀ x, x < beNat bytes ∨ beNat bytes + s.req.length.toNat ≤ x → c'.byte x = c.byte x) ∧
        (c.txnOpen = true → c.health ≠ .continued → ∀ bytes, c.txn = readByte :: bytes →
          c'.wel = c.wel ∧ ∀ x, c'.byte x = c.byte x) ∧
        (c.txnOpen = true → c.health = .continued →
          c'.wel = Config.freeWel s.draws ∧ ∀ x, c'.byte x = Config.freeArrayByte s.draws x)) ∧
      (s.outstanding = true → StateInv s →
        (s.fsm = .wren → c'.wel = Config.freeWel s.draws ∧ ∀ x, c'.byte x = c.byte x) ∧
        (s.fsm = .cmd → (∀ x, c'.byte x = c.byte x) ∧
          (s.req.op = .read → c'.wel = c.wel) ∧ (s.req.op ≠ .read → c'.wel = Config.freeWel s.draws)) ∧
        (s.fsm = .addr → c.health = .clean → (∀ x, c'.byte x = c.byte x) ∧
          (s.req.op = .read → c'.wel = c.wel) ∧ (s.req.op ≠ .read → c'.wel = Config.freeWel s.draws)) ∧
        (s.fsm = .data → c.health = .clean →
          (∀ x, x < beNat (latchedBytes s) ∨ beNat (latchedBytes s) + s.req.length.toNat ≤ x → c'.byte x = c.byte x) ∧
          (s.req.op = .read → c'.wel = c.wel ∧ ∀ x, c'.byte x = c.byte x)) ∧
        (s.fsm = .addr ∨ s.fsm = .data → c.health ≠ .clean →
          c'.wel = Config.freeWel s.draws ∧ ∀ x, c'.byte x = Config.freeArrayByte s.draws x) ∧
        (s.fsm = .abort → ∀ x, c'.byte x = c.byte x))) ∧
  ∀ (s : State) (rest : List EnvAction), s.agenda = .powerCycle :: rest →
    ∃ u, step { s with agenda := .reset :: rest } = .next u ∧
      step s = .next { u with chip := u.chip.map fun c => { c with wel := Config.freeWel s.draws } }

/-- R47 at the reset state: the invariant of the model holds there. -/
def Obligations.ResetIsSound : Prop := StateInv State.reset

/-! ### Encodings -/

/-- R71, R76, R79, R84, R87: decoding the word of a well-formed instruction on its port gives the instruction back, with every
operand at every value; ZFILL's word is ERASE's (R91). -/
def Obligations.DecodeInvertsEncode : Prop :=
  ∀ i : Instr, i.wellFormed = true → decode i.port (encode i) = .ok i.canonical

/-- R92: every 72-bit request descriptor and every 8-bit configuration descriptor decodes to exactly one well-formed
instruction of its port, whose word it is. -/
def Obligations.EveryDescriptorDecodes : Prop :=
  (∀ d : BitVec 72, (decodeRequest d).wellFormed = true ∧ (decodeRequest d).port = .request ∧
    encode (decodeRequest d) = d.toNat) ∧
  (∀ d : BitVec 8, (decodeConfig d).wellFormed = true ∧ (decodeConfig d).port = .config ∧
    encode (decodeConfig d) = d.toNat)

/-- Words written out from R79, R80, R84 to R87 and spec/95_test_vectors.md section 2.2. -/
def Obligations.SampleWordsDecode : Prop :=
  decode .request 0x000000100000000000 = .ok (.read 0 16) ∧
  decode .request 0x000000040000010001 = .ok (.write 0x100 4) ∧
  decode .request 0x000000020007FFFE02 = .ok (.erase 0x7FFFE 2) ∧
  decode .request 0x123456789ABCDEF003 = .ok (.sync 0x9ABCDEF0 0x12345678) ∧
  decode .request 0x0000001000000000FC = .ok (.invalidRequest .read 0x3F 0 16) ∧
  decode .config 0x06 = .ok (.bind .mr25h40) ∧
  decode .config 0x01 = .ok .unbind ∧
  decode .config 0x05 = .ok (.invalidConfig .unbind 2 0) ∧
  decode .command 0x03 = .ok .cmdRead ∧
  decode .command 0x02 = .ok .cmdWrite ∧
  decode .command 0x06 = .ok .cmdWren ∧
  decode .phase 0x0000000807 = .ok .phWren ∧
  decode .phase 0x0000000805 = .ok .phCmd ∧
  decode .phase 0x0000001004 = .ok .phAddr2 ∧
  decode .phase 0x0000001804 = .ok .phAddr3 ∧
  decode .phase 0x000000800A = .ok (.phDataRx 128) ∧
  decode .phase 0x0000001006 = .ok (.phDataTx 16) ∧
  decode .phase 0x0000000002 = .ok .phRelease

/-- R72, R76, R78: a command byte other than 0x03, 0x02 and 0x06 is no instruction; a phase descriptor with direction 3, with a
reserved bit set, or with a length that is no multiple of 8, is none. -/
def Obligations.ReservedWordsAreRejected : Prop :=
  (∀ b : Byte, b ≠ 0x03 → b ≠ 0x02 → b ≠ 0x06 → ∀ i, decode .command b.toNat ≠ .ok i) ∧
  (∀ d : BitVec 40, d.extractLsb' 2 2 = 3 ∨ d.extractLsb' 4 4 ≠ 0 ∨ d.extractLsb' 8 3 ≠ 0 →
    ∀ i, decode .phase d.toNat ≠ .ok i)

/-! ### The step -/

/-- R131, R171, R42, R43: when the block is idle and the host presents a descriptor, the step is `exec` of the decoded
instruction, with the presentation taken off the agenda and the write data on the port. -/
def Obligations.StepRunsThePresentedOperation : Prop :=
  ∀ (s : State) (rest : List EnvAction), s.fsm = .idle →
    (∀ d w, s.agenda = .request d w :: rest →
      step s = exec (decodeRequest d) { s with agenda := rest, wdata := w }) ∧
    (∀ d, s.agenda = .config d :: rest → step s = exec (decodeConfig d) { s with agenda := rest })

/-- R141: while the block is busy, with nothing listed or a pause listed for the environment, the step is `exec` of the
instruction whose word the block puts on the phase port; in IDLE it does nothing (R242, R259), and with a reserved code in `fsm`
it faults (R47, F1). -/
def Obligations.StepIssuesThePhaseOnThePort : Prop :=
  ∀ (s s' : State), (s.agenda = [] ∧ s' = s) ∨ (∃ rest, s.agenda = .pause :: rest ∧ s' = { s with agenda := rest }) →
    (s.fsm = .idle → step s = .next s') ∧
    (s.fsm = .reserved6 ∨ s.fsm = .reserved7 → step s = .fault .reservedFsm) ∧
    (∀ w i, s.fsm ≠ .idle → s.fsm ≠ .reserved6 → s.fsm ≠ .reserved7 → phaseWord s = some w → decode .phase w = .ok i →
      step s = exec i s')

/-- R192: a whole transaction given to the chip while the block is idle runs the command of its first byte. -/
def Obligations.StepRunsTheChipCommand : Prop :=
  ∀ (s : State) (rest : List EnvAction) (c : Chip) (b : Byte) (bytes : List Byte) (n : Nat) (i : Instr),
    s.fsm = .idle → s.agenda = .wire (b :: bytes) n :: rest → s.chip = some c → decode .command b.toNat = .ok i →
    step s = exec i { s with
      agenda := rest
      chip := some { c with txnOpen := true, txn := b :: bytes, clocked := n, health := .clean, out := [] } }

/-- R87: in a sound busy state the block has exactly one phase, the row of R87 for its state, operation and width. -/
def Obligations.ThePhaseMapGivesOneInstruction : Prop :=
  ∀ s : State, StateInv s → s.fsm ≠ .idle →
    ∃ w i, phaseWord s = some w ∧ decode .phase w = .ok i ∧
      (s.fsm = .wren → i = .phWren) ∧
      (s.fsm = .cmd → i = .phCmd) ∧
      (s.fsm = .addr → s.geom.aw = 2 → i = .phAddr2) ∧
      (s.fsm = .addr → s.geom.aw = 3 → i = .phAddr3) ∧
      (s.fsm = .data → s.req.op = .read → i = .phDataRx (8 * s.req.length.toNat)) ∧
      (s.fsm = .data → s.req.op ≠ .read → i = .phDataTx (8 * s.req.length.toNat)) ∧
      (s.fsm = .abort → i = .phRelease)

/-- R250: an operation presented while BUSY = 1 is not accepted: executed it is refused, and in a run the host waits, the
agenda unchanged. -/
def Obligations.PresentationsWaitWhileBusy : Prop :=
  ∀ s : State, s.fsm ≠ .idle →
    (∀ d : BitVec 72, exec (decodeRequest d) s = .refused .busy) ∧
    (∀ d : BitVec 8, exec (decodeConfig d) s = .refused .busy) ∧
    (∀ t rest, step s = .next t →
      (∃ d w, s.agenda = .request d w :: rest) ∨ (∃ d, s.agenda = .config d :: rest) → t.agenda = s.agenda)

/-- R41: a host's read of a register changes no state; of a response field while RESP_VALID = 0 it faults. That the read of a
reserved status code faults rests on spec/93 E4, and that the internal registers of R40 are refused by name is the model's choice
(log entry 17); so is that in `fsm` 6 and 7 every read faults (R47, R230; log entry 25). -/
def Obligations.HostReadsChangeNothing : Prop :=
  ∀ (s : State) (r : Reg) (rest : List EnvAction), s.agenda = .readReg r :: rest →
    (s.fsm = .reserved6 ∨ s.fsm = .reserved7 → step s = .fault .reservedFsm) ∧
    (s.fsm ≠ .reserved6 → s.fsm ≠ .reserved7 →
      (r ∈ [Reg.reqOp, .reqOffset, .reqLength, .addrLatch, .reqData] → step s = .refused .internalRegister) ∧
      (r ∈ [Reg.respStatus, .retlen, .errInfo, .errOffset, .errLength, .rdata] → s.resp.valid = false →
        step s = .fault .responseNotValid) ∧
      (r ∈ [Reg.respStatus, .retlen, .errInfo, .errOffset, .errLength, .rdata] → s.resp.valid = true →
        (r = .respStatus → s.resp.status.toNat ≤ 6) →
        hostRead r s = .next (s.reg r) ∧ step s = .next { s with agenda := rest }) ∧
      (r = .respStatus → s.resp.valid = true → 6 < s.resp.status.toNat → step s = .fault .reservedStatus) ∧
      (r ∈ [Reg.geomSize, .geomAw, .status, .descSize, .descWgran, .descEgran, .descClass] →
        hostRead r s = .next (s.reg r) ∧ step s = .next { s with agenda := rest }))

/-- R40, R39: which field each register a host may read holds, where the fields of STATUS, ADDR_LATCH and ERR_INFO stand, and that
their reserved bits read 0. -/
def Obligations.RegisterWordsHoldTheirFields : Prop :=
  ∀ s : State,
    (s.statusWord.extractLsb' 0 1 = BitVec.ofBool s.bound ∧
      s.statusWord.extractLsb' 1 1 = BitVec.ofBool (decide (s.fsm ≠ .idle)) ∧
      s.statusWord.extractLsb' 2 1 = BitVec.ofBool s.csActive ∧
      s.statusWord.extractLsb' 3 1 = BitVec.ofBool s.resp.valid ∧
      s.statusWord.extractLsb' 4 3 = s.fsm.code ∧
      s.statusWord.extractLsb' 7 25 = 0) ∧
    (s.addr.word.extractLsb' 0 8 = s.addr.b0 ∧ s.addr.word.extractLsb' 8 8 = s.addr.b1 ∧
      s.addr.word.extractLsb' 16 8 = s.addr.b2 ∧ s.addr.word.extractLsb' 24 6 = s.addr.bits ∧
      s.addr.word.extractLsb' 30 2 = 0) ∧
    (s.err.word.extractLsb' 0 2 = s.err.op ∧ s.err.word.extractLsb' 2 3 = s.err.phase ∧
      s.err.word.extractLsb' 5 1 = BitVec.ofBool s.err.cfg ∧ s.err.word.extractLsb' 6 2 = 0 ∧
      s.err.word.extractLsb' 8 8 = s.err.width ∧ s.err.word.extractLsb' 16 16 = 0) ∧
    (s.reg .geomSize = .word s.geom.size ∧ s.reg .geomAw = .word (s.geom.aw.setWidth 32) ∧
      s.reg .status = .word s.statusWord ∧ s.reg .respStatus = .word (s.resp.status.setWidth 32) ∧
      s.reg .retlen = .word s.resp.retlen ∧ s.reg .errInfo = .word s.err.word ∧
      s.reg .errOffset = .word s.err.offset ∧ s.reg .errLength = .word s.err.length ∧
      s.reg .descSize = .word s.geom.size ∧ s.reg .descWgran = .word 1 ∧ s.reg .descEgran = .word 1 ∧
      s.reg .descClass = .word 1 ∧ s.reg .rdata = .bytes s.resp.rdata)

/-! ### The address encoder -/

/-- R101, R102, R103, R51: for the widths 2 and 3 the address bytes are the big-endian offset truncated to that many bytes, and
the bit length is eight times the width; every other width fails and carries the width. -/
def Obligations.EncoderTruncatesBigEndian : Prop :=
  ∀ (offset : Word32) (w : Byte),
    (w = 2 ∨ w = 3 →
      ∃ bytes bits, encodeAddr offset w = .ok (bytes, bits) ∧ bytes.length = w.toNat ∧ bits.toNat = 8 * w.toNat ∧
        beNat bytes = offset.toNat % 2 ^ (8 * w.toNat)) ∧
    (w ≠ 2 → w ≠ 3 → encodeAddr offset w = .error w)

/-- Every row of the table of R105, and the examples of R101. -/
def Obligations.EncoderExamples : Prop :=
  encodeAddr 0x010203 3 = .ok ([0x01, 0x02, 0x03], 24) ∧
  encodeAddr 0x1234 2 = .ok ([0x12, 0x34], 16) ∧
  encodeAddr 0 2 = .ok ([0, 0], 16) ∧
  encodeAddr 0 3 = .ok ([0, 0, 0], 24) ∧
  encodeAddr 0xFFFF 2 = .ok ([0xFF, 0xFF], 16) ∧
  encodeAddr 0x10000 2 = .ok ([0, 0], 16) ∧
  encodeAddr 0x12345 2 = .ok ([0x23, 0x45], 16) ∧
  encodeAddr 0x012345 3 = .ok ([0x01, 0x23, 0x45], 24) ∧
  encodeAddr 0x7FFFF 3 = .ok ([0x07, 0xFF, 0xFF], 24) ∧
  encodeAddr 0xFFFFFF 3 = .ok ([0xFF, 0xFF, 0xFF], 24) ∧
  encodeAddr 0x1000000 3 = .ok ([0, 0, 0], 24) ∧
  encodeAddr 0xFFFFFFFF 3 = .ok ([0xFF, 0xFF, 0xFF], 24) ∧
  ∀ o : Word32, encodeAddr o 0 = .error 0 ∧ encodeAddr o 1 = .error 1 ∧ encodeAddr o 4 = .error 4 ∧
    encodeAddr o 255 = .error 255

/-- R51: in a sound state the address the ADDR phase sends is the request's offset itself, and the data stay inside the
device. -/
def Obligations.SoundStatesSendTheOffset : Prop :=
  ∀ s : State, StateInv s → s.fsm ≠ .idle →
    beNat (latchedBytes s) = s.req.offset.toNat ∧
    s.req.offset.toNat + s.req.length.toNat ≤ s.geom.size.toNat ∧ s.addr.bits.toNat = 8 * s.geom.aw.toNat

/-! ### Requests -/

/-- R131, R132, R150: a READ inside the device is latched, its address encoded, the response and the error record cleared, and
the next step issues the CMD phase; nothing else changes. -/
def Obligations.ReadStartsAtCmd : Prop :=
  ∀ (s : State) (offset length : Word32), s.fsm = .idle → s.wdata = none →
    offset.toNat + length.toNat ≤ s.geom.size.toNat →
    (s.geom.aw = 2 →
      exec (.read offset length) s = .next { s with
        fsm := .cmd
        req := ⟨.read, offset, length, []⟩
        addr := ⟨(offset >>> 8).setWidth 8, offset.setWidth 8, 0, 16⟩
        resp := ⟨false, 0, 0, []⟩
        err := ⟨false, 0, 0, 0, 0, 0⟩ }) ∧
    (s.geom.aw = 3 →
      exec (.read offset length) s = .next { s with
        fsm := .cmd
        req := ⟨.read, offset, length, []⟩
        addr := ⟨(offset >>> 16).setWidth 8, (offset >>> 8).setWidth 8, offset.setWidth 8, 24⟩
        resp := ⟨false, 0, 0, []⟩
        err := ⟨false, 0, 0, 0, 0, 0⟩ })

/-- R131, R132, R152, R254: a WRITE inside the device is latched with its data, and the next step issues the WREN phase. -/
def Obligations.WriteStartsAtWren : Prop :=
  ∀ (s : State) (offset length : Word32) (data : List Byte), s.fsm = .idle → s.wdata = some data →
    data.length = length.toNat → offset.toNat + length.toNat ≤ s.geom.size.toNat →
    (s.geom.aw = 2 →
      exec (.write offset length) s = .next { s with
        fsm := .wren
        req := ⟨.write, offset, length, data⟩
        addr := ⟨(offset >>> 8).setWidth 8, offset.setWidth 8, 0, 16⟩
        resp := ⟨false, 0, 0, []⟩
        err := ⟨false, 0, 0, 0, 0, 0⟩
        wdata := none }) ∧
    (s.geom.aw = 3 →
      exec (.write offset length) s = .next { s with
        fsm := .wren
        req := ⟨.write, offset, length, data⟩
        addr := ⟨(offset >>> 16).setWidth 8, (offset >>> 8).setWidth 8, offset.setWidth 8, 24⟩
        resp := ⟨false, 0, 0, []⟩
        err := ⟨false, 0, 0, 0, 0, 0⟩
        wdata := none })

/-- R131, R132, R156, R91: an ERASE, and ZFILL, its second name, start a write of zeros that the block generates. -/
def Obligations.EraseAndZfillStartAtWren : Prop :=
  ∀ (s : State) (offset length : Word32) (i : Instr), i = .erase offset length ∨ i = .zfill offset length →
    s.fsm = .idle → s.wdata = none → offset.toNat + length.toNat ≤ s.geom.size.toNat →
    (s.geom.aw = 2 →
      exec i s = .next { s with
        fsm := .wren
        req := ⟨.erase, offset, length, List.replicate length.toNat 0⟩
        addr := ⟨(offset >>> 8).setWidth 8, offset.setWidth 8, 0, 16⟩
        resp := ⟨false, 0, 0, []⟩
        err := ⟨false, 0, 0, 0, 0, 0⟩ }) ∧
    (s.geom.aw = 3 →
      exec i s = .next { s with
        fsm := .wren
        req := ⟨.erase, offset, length, List.replicate length.toNat 0⟩
        addr := ⟨(offset >>> 16).setWidth 8, (offset >>> 8).setWidth 8, offset.setWidth 8, 24⟩
        resp := ⟨false, 0, 0, []⟩
        err := ⟨false, 0, 0, 0, 0, 0⟩ })

/-- R160: SYNC completes OK in its acceptance step, whatever the geometry and BOUND, with no phase; its offset and length are
latched and ignored. With a reserved bit set it completes with INVALID_REQUEST. -/
def Obligations.SyncCompletesAtOnce : Prop :=
  ∀ (s : State) (offset length : Word32), s.fsm = .idle → s.wdata = none →
    exec (.sync offset length) s = .next { s with
      req := ⟨.sync, offset, length, []⟩
      resp := ⟨true, 0, 0, []⟩
      err := ⟨false, 0, 0, 0, 0, 0⟩ } ∧
    ∀ reserved : BitVec 6, exec (.invalidRequest .sync reserved offset length) s = .next { s with
      req := ⟨.sync, offset, length, []⟩
      resp := ⟨true, 6, 0, []⟩
      err := ⟨false, 3, 0, 0, offset, length⟩ }

/-- R81: a request descriptor with any of bits 7:2 set is accepted and completes with INVALID_REQUEST; no phase is issued, and
geometry, BOUND, address latch and chip are unchanged. -/
def Obligations.ReservedRequestBitsAreInvalid : Prop :=
  ∀ (s : State) (d : BitVec 72) (data : List Byte), d.extractLsb' 2 6 ≠ 0 →
    Presents (ReqOp.ofCode (d.extractLsb' 0 2)) (d.extractLsb' 40 32) data s →
    (∃ op reserved offset length, decodeRequest d = .invalidRequest op reserved offset length) ∧
    exec (decodeRequest d) s = .next { s with
      req := ⟨ReqOp.ofCode (d.extractLsb' 0 2), d.extractLsb' 8 32, d.extractLsb' 40 32, data⟩
      resp := ⟨true, 6, 0, []⟩
      err := ⟨false, d.extractLsb' 0 2, 0, 0, d.extractLsb' 8 32, d.extractLsb' 40 32⟩
      wdata := none }

/-- R102, R131, R212, R215: with a width other than 2 or 3 the encoder fails and carries the width; a READ, WRITE or ERASE is latched
and completes with UNSUPPORTED_ADDRESS_WIDTH in its acceptance step, ERR_WIDTH holds the width, and no phase is issued; the address
latch is unchanged. That the write-data lines are empty afterwards is the model's form of the port (log entry 6). -/
def Obligations.UnsupportedWidthIssuesNoPhase : Prop :=
  ∀ (s : State) (op : ReqOp) (offset length : Word32) (data : List Byte) (i : Instr), Transfers op offset length i →
    Presents op length data s → s.geom.aw ≠ 2 → s.geom.aw ≠ 3 →
    encodeAddr offset s.geom.aw = .error s.geom.aw ∧
    exec i s = .next { s with
      req := ⟨op, offset, length, data⟩
      resp := ⟨true, 1, 0, []⟩
      err := ⟨false, op.code, 0, s.geom.aw, offset, length⟩
      wdata := none }

/-- R214, R58: with a supported width, a READ, WRITE or ERASE whose exact sum of offset and length is above GEOM_SIZE completes
with OUT_OF_BOUNDS in its acceptance step, and no phase is issued; the address latch is unchanged. -/
def Obligations.OutOfBoundsIssuesNoPhase : Prop :=
  ∀ (s : State) (op : ReqOp) (offset length : Word32) (data : List Byte) (i : Instr), Transfers op offset length i →
    Presents op length data s → s.geom.aw = 2 ∨ s.geom.aw = 3 →
    s.geom.size.toNat < offset.toNat + length.toNat →
    exec i s = .next { s with
      req := ⟨op, offset, length, data⟩
      resp := ⟨true, 3, 0, []⟩
      err := ⟨false, op.code, 0, 0, offset, length⟩
      wdata := none }

/-- R243: on an unbound block READ, WRITE and ERASE complete with UNSUPPORTED_ADDRESS_WIDTH and ERR_WIDTH 0, SYNC completes OK,
an illegal descriptor with INVALID_REQUEST; none issues a phase. -/
def Obligations.UnboundRequestsComplete : Prop :=
  ∀ (s : State) (op : ReqOp) (offset length : Word32) (data : List Byte), s.bound = false → s.geom = ⟨0, 0⟩ →
    Presents op length data s →
    (∀ i, Transfers op offset length i → ∃ t, exec i s = .next t ∧ t.fsm = .idle ∧ t.resp = ⟨true, 1, 0, []⟩ ∧
      t.err = ⟨false, op.code, 0, 0, offset, length⟩ ∧ t.trace = s.trace ∧ t.chip = s.chip ∧ t.addr = s.addr) ∧
    (op = .sync → ∃ t, exec (.sync offset length) s = .next t ∧ t.fsm = .idle ∧ t.resp = ⟨true, 0, 0, []⟩ ∧
      t.trace = s.trace ∧ t.chip = s.chip ∧ t.addr = s.addr) ∧
    (∀ reserved, ∃ t, exec (.invalidRequest op reserved offset length) s = .next t ∧ t.fsm = .idle ∧
      t.resp = ⟨true, 6, 0, []⟩ ∧ t.trace = s.trace ∧ t.chip = s.chip ∧ t.addr = s.addr)

/-- R42: the request port refuses a WRITE whose write data are absent or not `length` bytes, and write data with any other op. A
descriptor with a reserved bit set is no exception: the port goes by its op field alone, the model's reading (log entry 18). -/
def Obligations.MalformedWriteDataIsRefused : Prop :=
  ∀ (s : State) (offset length : Word32) (data : List Byte), s.fsm = .idle →
    (s.wdata = none → exec (.write offset length) s = .refused .wdataMissing) ∧
    (s.wdata = some data → data.length ≠ length.toNat → exec (.write offset length) s = .refused .wdataWrongLength) ∧
    (s.wdata = some data →
      exec (.read offset length) s = .refused .wdataUnexpected ∧
      exec (.erase offset length) s = .refused .wdataUnexpected ∧
      exec (.zfill offset length) s = .refused .wdataUnexpected ∧
      exec (.sync offset length) s = .refused .wdataUnexpected) ∧
    ∀ d : BitVec 72,
      (d.extractLsb' 0 2 = 1 → s.wdata = none → exec (decodeRequest d) s = .refused .wdataMissing) ∧
      (d.extractLsb' 0 2 = 1 → s.wdata = some data → data.length ≠ (d.extractLsb' 40 32).toNat →
        exec (decodeRequest d) s = .refused .wdataWrongLength) ∧
      (d.extractLsb' 0 2 ≠ 1 → s.wdata = some data → exec (decodeRequest d) s = .refused .wdataUnexpected)

/-! ### Configuration operations -/

/-- R172, R174: BIND of an unbound instance, for each answer of the bus claim and of the registry. -/
def Obligations.BindWhileUnbound : Prop :=
  ∀ (s : State) (v : Variant) (g : Geometry) (a r : CollabResult) (as rs : List CollabResult), s.fsm = .idle →
    s.bound = false → s.geom = ⟨0, 0⟩ → s.claimAnswers = a :: as → s.registryAnswers = r :: rs →
    (v, g) ∈ [(Variant.mr25h128, Geometry.mk 0x4000 2), (.mr25h256, ⟨0x8000, 2⟩), (.mr25h10, ⟨0x20000, 3⟩),
      (.mr25h40, ⟨0x80000, 3⟩)] →
    (a = .err → exec (.bind v) s = .next { s with
      resp := ⟨true, 4, 0, []⟩
      err := ⟨true, 0, 0, 0, 0, 0⟩
      claimAnswers := as
      draws := s.draws + 1
      events := s.events ++ [.claimBus] }) ∧
    (a = .ok → r = .err → exec (.bind v) s = .next { s with
      resp := ⟨true, 5, 0, []⟩
      err := ⟨true, 0, 0, 0, 0, 0⟩
      claimAnswers := as
      registryAnswers := rs
      draws := s.draws + 2
      events := s.events ++ [.claimBus, .register ⟨g.size, 1, 1, 1⟩, .releaseBus] }) ∧
    (a = .ok → r = .ok → exec (.bind v) s = .next { s with
      geom := g
      bound := true
      resp := ⟨true, 0, 0, []⟩
      err := ⟨false, 0, 0, 0, 0, 0⟩
      claimAnswers := as
      registryAnswers := rs
      draws := s.draws + 2
      events := s.events ++ [.claimBus, .register ⟨g.size, 1, 1, 1⟩] })

/-- R173: a BIND of a bound instance first unregisters and releases it, whatever the registry answers to that, and then binds as
from unbound. -/
def Obligations.BindWhileBoundUnbindsFirst : Prop :=
  ∀ (s : State) (v : Variant) (a u r : CollabResult) (as rs : List CollabResult), s.fsm = .idle → s.bound = true →
    s.claimAnswers = a :: as → s.registryAnswers = u :: r :: rs →
    (a = .err → exec (.bind v) s = .next { s with
      geom := ⟨0, 0⟩
      bound := false
      resp := ⟨true, 4, 0, []⟩
      err := ⟨true, 0, 0, 0, 0, 0⟩
      claimAnswers := as
      registryAnswers := r :: rs
      draws := s.draws + 2
      events := s.events ++ [.unregister ⟨s.geom.size, 1, 1, 1⟩, .releaseBus, .claimBus] }) ∧
    (a = .ok → r = .err → exec (.bind v) s = .next { s with
      geom := ⟨0, 0⟩
      bound := false
      resp := ⟨true, 5, 0, []⟩
      err := ⟨true, 0, 0, 0, 0, 0⟩
      claimAnswers := as
      registryAnswers := rs
      draws := s.draws + 3
      events := s.events ++ [.unregister ⟨s.geom.size, 1, 1, 1⟩, .releaseBus, .claimBus,
        .register ⟨(variantGeometry v).size, 1, 1, 1⟩, .releaseBus] }) ∧
    (a = .ok → r = .ok → exec (.bind v) s = .next { s with
      geom := variantGeometry v
      resp := ⟨true, 0, 0, []⟩
      err := ⟨false, 0, 0, 0, 0, 0⟩
      claimAnswers := as
      registryAnswers := rs
      draws := s.draws + 3
      events := s.events ++ [.unregister ⟨s.geom.size, 1, 1, 1⟩, .releaseBus, .claimBus,
        .register ⟨(variantGeometry v).size, 1, 1, 1⟩] })

/-- R175, R176: UNBIND leaves the block unbound whatever the registry answers, and reports a registry failure; while unbound it
completes OK and changes nothing but the response fields. -/
def Obligations.UnbindAlwaysUnbinds : Prop :=
  ∀ s : State, s.fsm = .idle →
    (∀ u rs, s.registryAnswers = u :: rs → s.bound = true →
      (u = .ok → exec .unbind s = .next { s with
        geom := ⟨0, 0⟩
        bound := false
        resp := ⟨true, 0, 0, []⟩
        err := ⟨false, 0, 0, 0, 0, 0⟩
        registryAnswers := rs
        draws := s.draws + 1
        events := s.events ++ [.unregister ⟨s.geom.size, 1, 1, 1⟩, .releaseBus] }) ∧
      (u = .err → exec .unbind s = .next { s with
        geom := ⟨0, 0⟩
        bound := false
        resp := ⟨true, 5, 0, []⟩
        err := ⟨true, 1, 0, 0, 0, 0⟩
        registryAnswers := rs
        draws := s.draws + 1
        events := s.events ++ [.unregister ⟨s.geom.size, 1, 1, 1⟩, .releaseBus] })) ∧
    (s.bound = false → exec .unbind s = .next { s with
      resp := ⟨true, 0, 0, []⟩
      err := ⟨false, 0, 0, 0, 0, 0⟩ })

/-- R86, R171: a configuration descriptor with any of bits 7:3 set, or UNBIND with a variant, completes with INVALID_REQUEST,
ERR_CFG 1 and ERR_OP its cfg_op, and changes nothing but the response fields. -/
def Obligations.IllegalConfigurationIsInvalid : Prop :=
  ∀ (s : State) (d : BitVec 8), s.fsm = .idle →
    d.extractLsb' 3 5 ≠ 0 ∨ (d.extractLsb' 0 1 = 1 ∧ d.extractLsb' 1 2 ≠ 0) →
    (∃ op variant reserved, decodeConfig d = .invalidConfig op variant reserved) ∧
    exec (decodeConfig d) s = .next { s with
      resp := ⟨true, 6, 0, []⟩
      err := ⟨true, (d.extractLsb' 0 1).setWidth 2, 0, 0, 0, 0⟩ }

/-! ### Phases -/

/-- R142, R198: the WREN phase under Abort. Answered OK it leads to CMD and sets the chip's latch; answered BusError the request
completes with BUS_TRANSFER_FAILURE and ERR_PHASE 1, and the latch has any value. CS_ACTIVE is 0 afterwards. -/
def Obligations.WrenPhaseUnderAbort : Prop :=
  ∀ (s : State) (res : PhaseResult) (given : List Byte) (rest : List BusAnswer), s.fsm = .wren →
    s.req.op = .write ∨ s.req.op = .erase → s.csActive = false → s.policy = .abort → ChipFits s →
    s.busAnswers = .answered res given :: rest →
    (res = .ok → exec .phWren s = .next { s with
      fsm := .cmd
      outstanding := false
      busAnswers := rest
      draws := s.draws + 1
      trace := s.trace ++ [⟨⟨.csBeginEnd, .tx, 8⟩, [0x06], .ok, []⟩]
      chip := s.chip.map fun c => { c with
        geom := some s.geom, wel := true, txnOpen := false, txn := [], clocked := 0, health := .clean, out := [] } }) ∧
    (res = .busError → exec .phWren s = .next { s with
      fsm := .idle
      resp := ⟨true, 2, 0, []⟩
      err := ⟨false, s.req.op.code, 1, 0, s.req.offset, s.req.length⟩
      outstanding := false
      busAnswers := rest
      draws := s.draws + 1
      trace := s.trace ++ [⟨⟨.csBeginEnd, .tx, 8⟩, [0x06], .busError, []⟩]
      chip := s.chip.map fun c => { c with
        geom := some s.geom, wel := Config.freeWel s.draws, txnOpen := false, txn := [], clocked := 0,
        health := .clean, out := [] } })

/-- R143, R121: the CMD phase under Abort sends 0x03 for READ and 0x02 for WRITE and ERASE. Answered OK it leads to ADDR,
answered BusError to ABORT with ERR_PHASE 2 and no completion. CS_ACTIVE is 1 afterwards. That the chip's transaction holds the
byte of a failed phase is the model's choice (log entry 27). -/
def Obligations.CmdPhaseUnderAbort : Prop :=
  ∀ (s : State) (cmd : Byte) (res : PhaseResult) (given : List Byte) (rest : List BusAnswer), s.fsm = .cmd →
    (s.req.op = .read ∧ cmd = 0x03) ∨ (s.req.op = .write ∧ cmd = 0x02) ∨ (s.req.op = .erase ∧ cmd = 0x02) →
    s.csActive = false → s.policy = .abort → ChipFits s → s.busAnswers = .answered res given :: rest →
    (res = .ok → exec .phCmd s = .next { s with
      fsm := .addr
      csActive := true
      outstanding := false
      busAnswers := rest
      draws := s.draws + 1
      trace := s.trace ++ [⟨⟨.csBegin, .tx, 8⟩, [cmd], .ok, []⟩]
      chip := s.chip.map fun c => { c with
        geom := some s.geom, txnOpen := true, txn := [cmd], clocked := 0, health := .clean, out := [] } }) ∧
    (res = .busError → exec .phCmd s = .next { s with
      fsm := .abort
      csActive := true
      err := { s.err with phase := 2 }
      outstanding := false
      busAnswers := rest
      draws := s.draws + 1
      trace := s.trace ++ [⟨⟨.csBegin, .tx, 8⟩, [cmd], .busError, []⟩]
      chip := s.chip.map fun c => { c with
        geom := some s.geom, txnOpen := true, txn := [cmd], clocked := 0, health := .failed, out := [] } })

/-- R144: the ADDR phase under Abort sends ADDR_BITS bits, two latched bytes for width 2 and three for width 3. Answered OK it
leads to DATA, answered BusError to ABORT with ERR_PHASE 3. CS_ACTIVE stays 1. The attached chip receives the bytes and its
transaction's health follows the answer (R197); that it holds all the bytes of a failed phase is the model's choice (log entry
27). -/
def Obligations.AddrPhaseUnderAbort : Prop :=
  ∀ (s : State) (i : Instr) (bytes : List Byte) (res : PhaseResult) (given : List Byte) (rest : List BusAnswer),
    s.fsm = .addr → s.req.op ≠ .sync →
    (s.geom.aw = 2 ∧ s.addr.bits = 16 ∧ i = .phAddr2 ∧ bytes = [s.addr.b0, s.addr.b1]) ∨
      (s.geom.aw = 3 ∧ s.addr.bits = 24 ∧ i = .phAddr3 ∧ bytes = [s.addr.b0, s.addr.b1, s.addr.b2]) →
    s.csActive = true → s.policy = .abort → ChipFits s → s.busAnswers = .answered res given :: rest →
    (res = .ok → exec i s = .next { s with
      fsm := .data
      outstanding := false
      busAnswers := rest
      draws := s.draws + 1
      trace := s.trace ++ [⟨⟨.csNone, .tx, s.addr.bits.toNat⟩, bytes, .ok, []⟩]
      chip := s.chip.map fun c => { c with
        geom := some s.geom, txn := c.txn ++ bytes, health := c.health.after .ok } }) ∧
    (res = .busError → exec i s = .next { s with
      fsm := .abort
      err := { s.err with phase := 3 }
      outstanding := false
      busAnswers := rest
      draws := s.draws + 1
      trace := s.trace ++ [⟨⟨.csNone, .tx, s.addr.bits.toNat⟩, bytes, .busError, []⟩]
      chip := s.chip.map fun c => { c with
        geom := some s.geom, txn := c.txn ++ bytes, health := c.health.after .busError } })

/-- R145 for a READ with no chip model attached, under either policy: answered OK it completes OK with RETLEN the length and
RDATA the received bytes; answered BusError it completes with BUS_TRANSFER_FAILURE and ERR_PHASE 4, the bytes discarded. -/
def Obligations.DataPhaseOfReadDetached : Prop :=
  ∀ (s : State) (res : PhaseResult) (given : List Byte) (rest : List BusAnswer), s.fsm = .data → s.req.op = .read →
    s.csActive = true → s.chip = none → given.length = s.req.length.toNat →
    s.busAnswers = .answered res given :: rest →
    (res = .ok → exec (.phDataRx (8 * s.req.length.toNat)) s = .next { s with
      fsm := .idle
      csActive := false
      resp := ⟨true, 0, s.req.length, given⟩
      outstanding := false
      busAnswers := rest
      draws := s.draws + 1
      trace := s.trace ++ [⟨⟨.csEnd, .rx, 8 * s.req.length.toNat⟩, [], .ok, given⟩] }) ∧
    (res = .busError → exec (.phDataRx (8 * s.req.length.toNat)) s = .next { s with
      fsm := .idle
      csActive := false
      resp := ⟨true, 2, 0, []⟩
      err := ⟨false, 0, 4, 0, s.req.offset, s.req.length⟩
      outstanding := false
      busAnswers := rest
      draws := s.draws + 1
      trace := s.trace ++ [⟨⟨.csEnd, .rx, 8 * s.req.length.toNat⟩, [], .busError, []⟩] })

/-- R145, R193, R197 (e) for a READ with the chip attached and an undamaged transaction: answered OK the request completes with
the array's bytes; answered BusError it fails with ERR_PHASE 4; array and latch are unchanged either way. -/
def Obligations.DataPhaseOfReadAttached : Prop :=
  ∀ (s : State) (c : Chip) (address : List Byte) (res : PhaseResult) (given : List Byte) (rest : List BusAnswer),
    s.fsm = .data → s.req.op = .read → s.csActive = true → s.chip = some c → c.geom = some s.geom →
    c.health = .clean → c.txn = 0x03 :: address → address.length = s.geom.aw.toNat →
    beNat address + s.req.length.toNat ≤ s.geom.size.toNat → s.busAnswers = .answered res given :: rest →
    let data := (List.range s.req.length.toNat).map fun k => c.byte (beNat address + k)
    (res = .ok → exec (.phDataRx (8 * s.req.length.toNat)) s = .next { s with
      fsm := .idle
      csActive := false
      resp := ⟨true, 0, s.req.length, data⟩
      outstanding := false
      busAnswers := rest
      draws := s.draws + 1
      trace := s.trace ++ [⟨⟨.csEnd, .rx, 8 * s.req.length.toNat⟩, [], .ok, data⟩]
      chip := some { c with txnOpen := false, txn := [], clocked := 0, out := data } }) ∧
    (res = .busError → exec (.phDataRx (8 * s.req.length.toNat)) s = .next { s with
      fsm := .idle
      csActive := false
      resp := ⟨true, 2, 0, []⟩
      err := ⟨false, 0, 4, 0, s.req.offset, s.req.length⟩
      outstanding := false
      busAnswers := rest
      draws := s.draws + 1
      trace := s.trace ++ [⟨⟨.csEnd, .rx, 8 * s.req.length.toNat⟩, [], .busError, []⟩]
      chip := some { c with txnOpen := false, txn := [], clocked := 0, out := [] } })

/-- R145 for WRITE and ERASE: answered OK the request completes OK with RETLEN the length, answered BusError with
BUS_TRANSFER_FAILURE and ERR_PHASE 4; CS_ACTIVE is 0 afterwards and no other register of the block changes. An attached chip
stays attached, its transaction over, and if that was undamaged no byte outside the latched address and the length changes (R194,
R197 (b)). -/
def Obligations.DataPhaseOfWriteCompletes : Prop :=
  ∀ (s : State) (res : PhaseResult) (given : List Byte) (rest : List BusAnswer), StateInv s → ChipFits s →
    s.fsm = .data → s.req.op = .write ∨ s.req.op = .erase → s.busAnswers = .answered res given :: rest →
    ∃ chip,
      (res = .ok → exec (.phDataTx (8 * s.req.length.toNat)) s = .next { s with
        fsm := .idle
        csActive := false
        resp := ⟨true, 0, s.req.length, []⟩
        outstanding := false
        busAnswers := rest
        draws := s.draws + 1
        trace := s.trace ++ [⟨⟨.csEnd, .tx, 8 * s.req.length.toNat⟩, s.req.data, .ok, []⟩]
        chip := chip }) ∧
      (res = .busError → exec (.phDataTx (8 * s.req.length.toNat)) s = .next { s with
        fsm := .idle
        csActive := false
        resp := ⟨true, 2, 0, []⟩
        err := ⟨false, s.req.op.code, 4, 0, s.req.offset, s.req.length⟩
        outstanding := false
        busAnswers := rest
        draws := s.draws + 1
        trace := s.trace ++ [⟨⟨.csEnd, .tx, 8 * s.req.length.toNat⟩, s.req.data, .busError, []⟩]
        chip := chip }) ∧
      (s.chip = none → chip = none) ∧
      ∀ c, s.chip = some c → ∃ c', chip = some c' ∧ c'.txnOpen = false ∧ c'.geom = c.geom ∧
        (c.health = .clean →
          ∀ x, x < beNat (latchedBytes s) ∨ beNat (latchedBytes s) + s.req.length.toNat ≤ x → c'.byte x = c.byte x)

/-- R195, R196, R197 (b): what the DATA phase of a WRITE or ERASE does to an attached chip with an undamaged transaction whose
address bytes are `address`. With WEL = 1 and the answer OK the data stand at the address and WEL is 0; with WEL = 0 no byte
changes; after BusError the target bytes have any value. Every byte outside the target reads as before. -/
def Obligations.DataPhaseOfWriteOnTheChip : Prop :=
  ∀ (s : State) (c : Chip) (address : List Byte) (res : PhaseResult) (given : List Byte) (rest : List BusAnswer),
    s.fsm = .data → s.req.op = .write ∨ s.req.op = .erase → s.csActive = true → s.chip = some c →
    c.geom = some s.geom → c.health = .clean → c.txn = 0x02 :: address → address.length = s.geom.aw.toNat →
    s.req.data.length = s.req.length.toNat → beNat address + s.req.length.toNat ≤ s.geom.size.toNat →
    s.busAnswers = .answered res given :: rest →
    ∃ t c', exec (.phDataTx (8 * s.req.length.toNat)) s = .next t ∧ t.chip = some c' ∧ c'.txnOpen = false ∧
      c'.geom = c.geom ∧
      (∀ x, x < beNat address ∨ beNat address + s.req.length.toNat ≤ x → c'.byte x = c.byte x) ∧
      (res = .ok → c'.wel = false) ∧
      (res = .ok → c.wel = true → ∀ k (h : k < s.req.data.length), c'.byte (beNat address + k) = s.req.data[k]) ∧
      (res = .ok → c.wel = false → ∀ x, c'.byte x = c.byte x) ∧
      (res = .busError → ∀ k, k < s.req.length.toNat →
        c'.byte (beNat address + k) = Config.freeArrayByte s.draws (beNat address + k)) ∧
      (res = .busError → c'.wel = Config.freeWel s.draws)

/-- R146, R118, R197 (a): the release phase, whatever its answer, de-asserts chip-select and completes the request with
BUS_TRANSFER_FAILURE, ERR_PHASE as the failed phase wrote it. No byte of the array changes, and after a READ transaction the
latch does not either. R197 (a) says so of a WRITE whose latest CMD or ADDR phase failed; that it holds whatever the earlier phases
met (log entry 14), and of a transaction with no byte or another first byte (log entry 32), is the model's choice. -/
def Obligations.ReleasePhaseCompletes : Prop :=
  ∀ (s : State) (res : PhaseResult) (given : List Byte) (rest : List BusAnswer), s.fsm = .abort → s.csActive = true →
    ChipFits s → s.busAnswers = .answered res given :: rest →
    ∃ chip, exec .phRelease s = .next { s with
        fsm := .idle
        csActive := false
        resp := ⟨true, 2, 0, []⟩
        err := ⟨false, s.req.op.code, s.err.phase, 0, s.req.offset, s.req.length⟩
        outstanding := false
        busAnswers := rest
        draws := s.draws + 1
        trace := s.trace ++ [⟨⟨.csEnd, .noData, 0⟩, [], res, []⟩]
        chip := chip } ∧
      (s.chip = none → chip = none) ∧
      ∀ c, s.chip = some c → ∃ c', chip = some c' ∧ c'.txnOpen = false ∧ (∀ x, c'.byte x = c.byte x) ∧
        ∀ bytes, c.txn = 0x03 :: bytes → c'.wel = c.wel

/-- R147: under Permissive the WREN, CMD and ADDR phases are those of R142 to R144, with the same framing, direction, length and
bytes, lead on whatever their answer, and write neither the response nor the error record; no step of a phase reaches ABORT; the
DATA phase is as under Abort. The latch is set by a WREN phase answered OK (R198), has any value after one answered BusError
(R197 (d)), and is kept by CMD and ADDR. That these phases change no byte of the array, also after a failed CMD phase, is the
model's moment of the draws of R197 (f) (log entry 16). -/
def Obligations.PermissiveGoesOn : Prop :=
  (∀ (s : State) (res : PhaseResult) (given : List Byte) (rest : List BusAnswer), StateInv s → ChipFits s →
    s.policy = .permissive → s.busAnswers = .answered res given :: rest →
    ∀ i after desc bytes,
      (s.fsm = .wren ∧ i = .phWren ∧ after = .cmd ∧ desc = ⟨.csBeginEnd, .tx, 8⟩ ∧ bytes = [0x06]) ∨
        (s.fsm = .cmd ∧ i = .phCmd ∧ after = .addr ∧ desc = ⟨.csBegin, .tx, 8⟩ ∧
          ((s.req.op = .read ∧ bytes = [0x03]) ∨ (s.req.op ≠ .read ∧ bytes = [0x02]))) ∨
        (s.fsm = .addr ∧ s.geom.aw = 2 ∧ i = .phAddr2 ∧ after = .data ∧ desc = ⟨.csNone, .tx, 16⟩ ∧
          bytes = [s.addr.b0, s.addr.b1]) ∨
        (s.fsm = .addr ∧ s.geom.aw = 3 ∧ i = .phAddr3 ∧ after = .data ∧ desc = ⟨.csNone, .tx, 24⟩ ∧
          bytes = [s.addr.b0, s.addr.b1, s.addr.b2]) →
      ∃ t, exec i s = .next t ∧ t.fsm = after ∧ t.resp = s.resp ∧ t.err = s.err ∧ t.req = s.req ∧ t.addr = s.addr ∧
        t.geom = s.geom ∧ t.bound = s.bound ∧ t.trace = s.trace ++ [⟨desc, bytes, res, []⟩] ∧
        (s.chip = none → t.chip = none) ∧
        ∀ c, s.chip = some c → ∃ c', t.chip = some c' ∧ (∀ x, c'.byte x = c.byte x) ∧
          (s.fsm = .wren → res = .ok → c'.wel = true) ∧
          (s.fsm = .wren → res = .busError → c'.wel = Config.freeWel s.draws) ∧
          (s.fsm ≠ .wren → c'.wel = c.wel)) ∧
  (∀ i s t, s.policy = .permissive → s.fsm ≠ .abort → exec i s = .next t → t.fsm ≠ .abort) ∧
  (∀ (s t : State) (i : Instr) (n : Nat), i = .phDataRx n ∨ i = .phDataTx n →
    exec i { s with policy := .permissive } = .next { t with policy := .permissive } →
    exec i { s with policy := .abort } = .next { t with policy := .abort })

/-- R123: while the bus engine does not answer, the block stays where it is, with the phase outstanding (R259). That chip-select,
chip and trace wait for the answer is the model's choice (log entry 26). -/
def Obligations.SilentBusLeavesTheBlockWaiting : Prop :=
  ∀ (s : State) (rest : List BusAnswer), StateInv s → ChipFits s → s.fsm ≠ .idle → s.agenda = [] →
    s.busAnswers = .silent :: rest → step s = .next { s with outstanding := true, busAnswers := rest, draws := s.draws + 1 }

/-- R115, R113, R114, R116, R117: CS_ACTIVE before and after an answered phase, by its framing, whatever the answer. The
chip-select wire is low during every phase and is afterwards the complement of CS_ACTIVE: low after None and Begin, high after End
and BeginEnd (R46, R125). -/
def Obligations.ChipSelectFollowsTheFraming : Prop :=
  ∀ (i : Instr) (s t : State) (res : PhaseResult) (given : List Byte) (rest : List BusAnswer), i.port = .phase →
    s.busAnswers = .answered res given :: rest → exec i s = .next t →
    (encode i % 4 = 0 → s.csActive = true ∧ t.csActive = true ∧ t.csWire = false) ∧
    (encode i % 4 = 1 → s.csActive = false ∧ t.csActive = true ∧ t.csWire = false) ∧
    (encode i % 4 = 2 → s.csActive = true ∧ t.csActive = false ∧ t.csWire = true) ∧
    (encode i % 4 = 3 → s.csActive = false ∧ t.csActive = false ∧ t.csWire = true) ∧
    csWireDuring (.ofCode (encode i % 4)) s.csActive = false ∧
    s.csWire = !s.csActive

/-- R197 (f), R148 (d): the DATA phase of a transaction that went on after a failed CMD or ADDR phase leaves every byte of the
array and the latch with any value, whatever its answer; the request completes by its answer alone. -/
def Obligations.ContinuedTransactionLeavesAnyArray : Prop :=
  ∀ (s : State) (c : Chip) (i : Instr) (res : PhaseResult) (given : List Byte) (rest : List BusAnswer), StateInv s →
    s.fsm = .data → s.chip = some c → c.health ≠ .clean → s.busAnswers = .answered res given :: rest →
    (s.req.op = .read ∧ i = .phDataRx (8 * s.req.length.toNat)) ∨
      (s.req.op ≠ .read ∧ i = .phDataTx (8 * s.req.length.toNat)) →
    ∃ t c', exec i s = .next t ∧ t.chip = some c' ∧ (∀ x, c'.byte x = Config.freeArrayByte s.draws x) ∧
      c'.wel = Config.freeWel s.draws ∧ t.fsm = .idle ∧
      (res = .ok → t.resp.status = 0 ∧ t.resp.retlen = s.req.length ∧ t.err = s.err) ∧
      (res = .busError → t.resp.status = 2 ∧ t.resp.retlen = 0 ∧ t.resp.rdata = [] ∧ t.err.phase = 4)

/-! ### Chip commands

A chip whose geometry is known goes by it, also while the block is bound to another: the model's choice (log entry 35). -/

/-- R193, R194: the chip's READ drives the array's bytes from the big-endian address on, and changes neither array nor latch. That
bytes sent after the address do not move the first byte driven is the model's choice (log entry 28). -/
def Obligations.ChipReadDrivesTheArray : Prop :=
  ∀ (s : State) (c : Chip) (rest : List Byte), s.chip = some c → c.txnOpen = true → c.health = .clean →
    c.txn = 0x03 :: rest →
    let g := c.geom.getD s.geom
    ∀ address more, rest = address ++ more → address.length = g.aw.toNat →
      c.clocked = 0 ∨ beNat address + c.clocked ≤ g.size.toNat →
      exec .cmdRead s = .next { s with
        draws := s.draws + 1
        chip := some { c with
          txnOpen := false, txn := [], clocked := 0,
          out := (List.range c.clocked).map fun k => c.byte (beNat address + k) } }

/-- Log entry 15, the model's choice: a READ given to the chip whose address bytes are not all there drives bytes of any value,
and changes neither array nor latch. -/
def Obligations.ChipReadBeforeTheAddress : Prop :=
  ∀ (s : State) (c : Chip) (rest : List Byte), s.chip = some c → c.txnOpen = true → c.health = .clean →
    c.txn = 0x03 :: rest → rest.length < (c.geom.getD s.geom).aw.toNat →
    exec .cmdRead s = .next { s with
      draws := s.draws + 1
      chip := some { c with
        txnOpen := false, txn := [], clocked := 0
        out := (List.range c.clocked).map fun k => Config.freeRxByte s.draws k } }

/-- R195, R196, R194: the chip's WRITE stores its data bytes from the big-endian address on and clears WEL when WEL is 1; with
WEL = 0 it changes nothing. Every byte outside the stored ones reads as before. With an address that is not complete the array is
unchanged and WEL has any value (R197 (a), (c)), also at an End answered OK, by the model's reading (log entry 14). Bytes clocked
out of the transaction change nothing, the model's choice (log entry 29). -/
def Obligations.ChipWriteStoresUnderTheLatch : Prop :=
  (∀ (s : State) (c : Chip) (address data : List Byte), s.chip = some c → c.txnOpen = true → c.health = .clean →
    c.txn = 0x02 :: (address ++ data) → address.length = (c.geom.getD s.geom).aw.toNat →
    data = [] ∨ beNat address + data.length ≤ (c.geom.getD s.geom).size.toNat →
    ∃ array, exec .cmdWrite s = .next { s with
        draws := s.draws + 1
        chip := some { c with
          txnOpen := false, txn := [], clocked := 0, out := [], wel := false, array := array } } ∧
      (c.wel = true → ∀ k (h : k < data.length), Memory.read array (beNat address + k) = some data[k]) ∧
      (∀ x, x < beNat address ∨ beNat address + data.length ≤ x → Memory.read array x = Memory.read c.array x) ∧
      (c.wel = false → array = c.array)) ∧
  ∀ (s : State) (c : Chip) (rest : List Byte), s.chip = some c → c.txnOpen = true → c.health = .clean →
    c.txn = 0x02 :: rest → rest.length < (c.geom.getD s.geom).aw.toNat →
    exec .cmdWrite s = .next { s with
      draws := s.draws + 1
      chip := some { c with
        txnOpen := false, txn := [], clocked := 0, out := [], wel := Config.freeWel s.draws } }

/-- R198: the chip's WRITE_ENABLE, a transaction of one byte, sets WEL and changes nothing else of the chip's contents. -/
def Obligations.ChipWriteEnableSetsTheLatch : Prop :=
  ∀ (s : State) (c : Chip), s.chip = some c → c.txnOpen = true → c.health = .clean → c.txn = [0x06] →
    c.clocked = 0 → exec .cmdWren s = .next { s with
      draws := s.draws + 1
      chip := some { c with txnOpen := false, txn := [], clocked := 0, out := [], wel := true } }

/-- R199, R201: a transaction given to the chip faults when its first byte is no command, when WRITE_ENABLE is followed by a
byte that is sent or clocked out, and when a data byte of a READ or WRITE lies at or beyond GEOM_SIZE. -/
def Obligations.ChipFaultsOnMeaninglessTransactions : Prop :=
  ∀ (s : State) (c : Chip) (b : Byte) (bytes : List Byte) (n : Nat) (rest : List EnvAction), s.fsm = .idle →
    s.chip = some c → s.agenda = .wire (b :: bytes) n :: rest →
    (b ≠ 0x02 → b ≠ 0x03 → b ≠ 0x06 → step s = .fault .unknownChipCommand) ∧
    (b = 0x06 → bytes ≠ [] ∨ 0 < n → step s = .fault .unknownChipCommand) ∧
    (∀ address data, bytes = address ++ data → address.length = (c.geom.getD s.geom).aw.toNat →
      (b = 0x02 → data ≠ [] → (c.geom.getD s.geom).size.toNat < beNat address + data.length →
        step s = .fault .chipAddressBeyondArray) ∧
      (b = 0x03 → 0 < n → (c.geom.getD s.geom).size.toNat < beNat address + n →
        step s = .fault .chipAddressBeyondArray))

/-! ### Rules of the whole machine -/

/-- R47, R119: every step keeps the invariant: `fsm` holds no reserved code, CS_ACTIVE follows it, the geometry is a row of the
variant table while bound and 0 otherwise, the latches of a busy block hold a valid request, and the chip's open transaction is
the one the block issued. -/
def Obligations.EveryStepKeepsTheInvariant : Prop :=
  ∀ s t : State, StateInv s → step s = .next t → StateInv t

/-- R230: no model fault is reachable by the rules: a step from a sound state faults only on a host's read of a register, or on
a transaction the environment gives the chip directly, an action of the model's environment (log entry 6). -/
def Obligations.SoundStatesDoNotFault : Prop :=
  ∀ (s : State) (f : Fault), StateInv s → step s = .fault f →
    ∃ rest, (∃ r, s.agenda = .readReg r :: rest) ∨ (∃ bytes n, s.agenda = .wire bytes n :: rest)

/-- R177, R22, R24: no instruction but BIND and UNBIND writes the geometry or BOUND, and each of these leaves BOUND = 1 only
with a geometry of the variant table. -/
def Obligations.OnlyBindAndUnbindWriteTheGeometry : Prop :=
  ∀ (i : Instr) (s t : State), exec i s = .next t →
    (t.geom ≠ s.geom ∨ t.bound ≠ s.bound → (∃ v, i = .bind v) ∨ i = .unbind) ∧
    ((∃ v, i = .bind v) ∨ i = .unbind → t.bound = true → isVariant t.geom)

/-- R140: a completion is the only way back to IDLE from a non-IDLE state. Every request, configuration operation and phase that
ends in IDLE completes. A completion with status OK has RETLEN the length for the data phases and 0 for SYNC, BIND and UNBIND; any
other status has RETLEN 0 and no data. A chip command completes nothing. -/
def Obligations.CompletionIsTheOnlyWayToIdle : Prop :=
  ∀ (i : Instr) (s t : State), exec i s = .next t →
    (s.fsm ≠ .idle → t.fsm = .idle → t.resp.valid = true) ∧
    (i.port ≠ .command → t.fsm = .idle →
      t.resp.valid = true ∧
      (t.resp.status = 0 →
        (((∃ n, i = .phDataRx n ∨ i = .phDataTx n) ∧ t.resp.retlen = t.req.length) ∨
          ((∃ o l, i = .sync o l) ∨ (∃ v, i = .bind v) ∨ i = .unbind) ∧ t.resp.retlen = 0)) ∧
      (t.resp.status ≠ 0 → t.resp.retlen = 0 ∧ t.resp.rdata = [])) ∧
    (i.port = .command → t.resp = s.resp ∧ t.fsm = s.fsm)

/-- R10, R8, R111: no step changes the policy; a step puts at most one phase on the phase port, after those before it; and the
collaborator events so far stay on record. -/
def Obligations.StepsKeepPolicyAndRecords : Prop :=
  ∀ s t : State, step s = .next t →
    t.policy = s.policy ∧ (∃ more, t.trace = s.trace ++ more ∧ more.length ≤ 1) ∧ (∃ more, t.events = s.events ++ more)

/-- R48, R69: a step of one instance changes no other instance. -/
def Obligations.InstancesDoNotInterfere : Prop :=
  ∀ (sys sys' : System) (k j : Nat), stepInstance k sys = .next sys' → j ≠ k →
    sys'[j]? = sys[j]? ∧ sys'.length = sys.length

/-! ### Whole requests -/

/-- R150, R120: a READ inside the device, with every phase answered OK, takes one acceptance step and three phases: CMD, ADDR,
DATA; it completes OK with RETLEN the length and RDATA the array's bytes, and changes no byte of the array. -/
def Obligations.ReadRunsThreePhases : Prop :=
  ∀ (s : State) (c : Chip) (offset length : Word32), StateInv s → ChipFits s → s.fsm = .idle → s.bound = true →
    s.chip = some c → offset.toNat + length.toNat ≤ s.geom.size.toNat →
    s.agenda = [.request (BitVec.ofNat 72 (encode (.read offset length))) none] → AnswersOk 3 s →
    let data := (List.range length.toNat).map fun k => c.byte (offset.toNat + k)
    ∃ t c' address, Sys2Proof.core.run 4 s = .next t ∧ t.fsm = .idle ∧ t.csActive = false ∧
      t.resp = ⟨true, 0, length, data⟩ ∧ t.err = ⟨false, 0, 0, 0, 0, 0⟩ ∧
      t.chip = some c' ∧ (∀ x, c'.byte x = c.byte x) ∧ c'.wel = c.wel ∧
      address.length = s.geom.aw.toNat ∧ beNat address = offset.toNat ∧
      t.trace = s.trace ++ [⟨⟨.csBegin, .tx, 8⟩, [0x03], .ok, []⟩,
        ⟨⟨.csNone, .tx, 8 * s.geom.aw.toNat⟩, address, .ok, []⟩,
        ⟨⟨.csEnd, .rx, 8 * length.toNat⟩, [], .ok, data⟩]

/-- R152, R154, R120: a WRITE inside the device, with every phase answered OK, takes one acceptance step and four phases, of
which exactly the first is a write-enable; it completes OK with RETLEN the length, its data stand in the array, and no other
byte changes. -/
def Obligations.WriteRunsFourPhases : Prop :=
  ∀ (s : State) (c : Chip) (offset length : Word32) (data : List Byte), StateInv s → ChipFits s →
    s.fsm = .idle → s.bound = true → s.chip = some c → data.length = length.toNat →
    offset.toNat + length.toNat ≤ s.geom.size.toNat →
    s.agenda = [.request (BitVec.ofNat 72 (encode (.write offset length))) (some data)] → AnswersOk 4 s →
    ∃ t c' address, Sys2Proof.core.run 5 s = .next t ∧ t.fsm = .idle ∧ t.csActive = false ∧
      t.resp = ⟨true, 0, length, []⟩ ∧ t.err = ⟨false, 0, 0, 0, 0, 0⟩ ∧ t.chip = some c' ∧ c'.wel = false ∧
      (∀ k (h : k < data.length), c'.byte (offset.toNat + k) = data[k]) ∧
      (∀ x, x < offset.toNat ∨ offset.toNat + length.toNat ≤ x → c'.byte x = c.byte x) ∧
      address.length = s.geom.aw.toNat ∧ beNat address = offset.toNat ∧
      t.trace = s.trace ++ [⟨⟨.csBeginEnd, .tx, 8⟩, [0x06], .ok, []⟩, ⟨⟨.csBegin, .tx, 8⟩, [0x02], .ok, []⟩,
        ⟨⟨.csNone, .tx, 8 * s.geom.aw.toNat⟩, address, .ok, []⟩, ⟨⟨.csEnd, .tx, 8 * length.toNat⟩, data, .ok, []⟩]

/-- R63 (c): a READ after a WRITE of the same place, both with every phase answered OK, returns the bytes written, under either
policy. -/
def Obligations.ReadReturnsWhatWasWritten : Prop :=
  ∀ (s : State) (c : Chip) (offset length : Word32) (data : List Byte), StateInv s → ChipFits s →
    s.fsm = .idle → s.bound = true → s.chip = some c → data.length = length.toNat →
    offset.toNat + length.toNat ≤ s.geom.size.toNat →
    s.agenda = [.request (BitVec.ofNat 72 (encode (.write offset length))) (some data),
      .request (BitVec.ofNat 72 (encode (.read offset length))) none] → AnswersOk 7 s →
    ∃ t, Sys2Proof.core.run 9 s = .next t ∧ t.fsm = .idle ∧ t.resp = ⟨true, 0, length, data⟩

/-- R157: a READ after an ERASE of the same place, both with every phase answered OK, returns zeros. -/
def Obligations.ReadAfterEraseReturnsZeros : Prop :=
  ∀ (s : State) (c : Chip) (offset length : Word32), StateInv s → ChipFits s → s.fsm = .idle →
    s.bound = true → s.chip = some c → offset.toNat + length.toNat ≤ s.geom.size.toNat →
    s.agenda = [.request (BitVec.ofNat 72 (encode (.erase offset length))) none,
      .request (BitVec.ofNat 72 (encode (.read offset length))) none] → AnswersOk 7 s →
    ∃ t, Sys2Proof.core.run 9 s = .next t ∧ t.fsm = .idle ∧
      t.resp = ⟨true, 0, length, List.replicate length.toNat 0⟩

/-- R151, R153: how many phases a request that has passed validation issues, under Abort by the first failure, under Permissive
always all. -/
def Obligations.PhaseCounts : Prop :=
  ∀ (s : State) (r₀ r₁ r₂ r₃ : PhaseResult) (g₀ g₁ g₂ g₃ : List Byte) (rest : List BusAnswer), StateInv s → ChipFits s →
    s.agenda = [] → s.busAnswers = .answered r₀ g₀ :: .answered r₁ g₁ :: .answered r₂ g₂ :: .answered r₃ g₃ :: rest →
    (s.fsm = .cmd → s.req.op = .read →
      ∃ n t, Sys2Proof.core.run n s = .next t ∧ t.fsm = .idle ∧ t.trace.length = s.trace.length + n ∧
        n = (if s.policy = .abort ∧ r₀ = .busError then 2 else 3)) ∧
    (s.fsm = .wren →
      ∃ n t, Sys2Proof.core.run n s = .next t ∧ t.fsm = .idle ∧ t.trace.length = s.trace.length + n ∧
        n = (if s.policy = .abort ∧ r₀ = .busError then 1
          else if s.policy = .abort ∧ r₁ = .busError then 3 else 4))

/-- R27, R123, R222: every request in progress ends under weak fairness: if four of the bus engine's answers to come are OK or
BusError, with any steps of silence before each, the block comes to IDLE within those answers and at most four phases, with
chip-select de-asserted and the response valid. -/
def Obligations.EveryRequestEnds : Prop :=
  ∀ s : State, StateInv s → ChipFits s → s.agenda = [] → s.fsm ≠ .idle → Answers 4 s →
    ∃ n t, n ≤ s.busAnswers.length ∧ Sys2Proof.core.run n s = .next t ∧ t.trace.length ≤ s.trace.length + 4 ∧
      t.fsm = .idle ∧ t.csActive = false ∧ t.resp.valid = true
end

