-- ==== Sys2Proof/Laws/Memory.lean ====
section
/-!
SUPPORT. The array's bytes: a read after a write, and that every operation keeps the canonical form.
-/

namespace Sys2Proof.Machine

@[simp] theorem memory_read_nil (a : Nat) : Memory.read [] a = none := rfl

theorem memory_read_write_same (m : List Host.Cell) (a : Nat) (b : Byte) :
    Memory.read (Memory.write m a b) a = some b := by
  induction m with
  | nil => simp [Memory.write, Memory.read]
  | cons x m ih =>
    obtain ⟨x, c⟩ := x
    unfold Memory.write
    split
    · simp [Memory.read]
    · split
      · simp [Memory.read]
      · next h => simp [Memory.read, Ne.symm h, ih]

theorem memory_read_write_other (m : List Host.Cell) {a a' : Nat} (b : Byte) (h : a' ≠ a) :
    Memory.read (Memory.write m a b) a' = Memory.read m a' := by
  induction m with
  | nil => simp [Memory.write, Memory.read, Ne.symm h]
  | cons x m ih =>
    obtain ⟨x, c⟩ := x
    unfold Memory.write
    split
    · simp [Memory.read, Ne.symm h]
    · split
      · next h' => subst h'; simp [Memory.read, Ne.symm h]
      · simp [Memory.read, ih]

theorem memory_mem_write {m : List Host.Cell} {a x : Nat} {b : Byte}
    (h : x ∈ (Memory.write m a b).map Prod.fst) : x = a ∨ x ∈ m.map Prod.fst := by
  induction m with
  | nil => simpa [Memory.write] using h
  | cons y m ih =>
    obtain ⟨y, c⟩ := y
    unfold Memory.write at h
    split at h
    · simpa using h
    · split at h
      · simp only [List.map_cons, List.mem_cons] at h ⊢
        tauto
      · simp only [List.map_cons, List.mem_cons] at h ⊢
        rcases h with h | h
        · tauto
        · rcases ih h with h | h <;> tauto

theorem memory_write_wf {m : List Host.Cell} (h : Memory.wf m) (a : Nat) (b : Byte) :
    Memory.wf (Memory.write m a b) := by
  induction m with
  | nil => simp [Memory.write, Memory.wf]
  | cons x m ih =>
    obtain ⟨x, c⟩ := x
    simp only [Memory.wf, List.map_cons, List.pairwise_cons] at h ih
    unfold Memory.write
    split
    · next hlt =>
      simp only [Memory.wf, List.map_cons, List.pairwise_cons, List.mem_cons]
      refine ⟨?_, h⟩
      rintro y (rfl | hy)
      · exact hlt
      · exact hlt.trans (h.1 y hy)
    · split
      · next heq => simpa [Memory.wf, List.pairwise_cons, heq] using h
      · next hlt hne =>
        simp only [Memory.wf, List.map_cons, List.pairwise_cons]
        refine ⟨fun y hy => ?_, ih h.2⟩
        rcases memory_mem_write hy with rfl | hy
        · omega
        · exact h.1 y hy

theorem memory_writeBytes_wf {m : List Host.Cell} (h : Memory.wf m) (a : Nat) (bs : List Byte) :
    Memory.wf (Memory.writeBytes m a bs) := by
  induction bs generalizing m a with
  | nil => exact h
  | cons b bs ih => exact ih (memory_write_wf h a b) (a + 1)

theorem memory_read_writeBytes_below (m : List Host.Cell) {a x : Nat} (bs : List Byte) (h : x < a) :
    Memory.read (Memory.writeBytes m a bs) x = Memory.read m x := by
  induction bs generalizing m a with
  | nil => rfl
  | cons b bs ih =>
    rw [Memory.writeBytes, ih _ (by omega), memory_read_write_other _ _ (by omega)]

theorem memory_read_writeBytes_above (m : List Host.Cell) {a x : Nat} (bs : List Byte) (h : a + bs.length ≤ x) :
    Memory.read (Memory.writeBytes m a bs) x = Memory.read m x := by
  induction bs generalizing m a with
  | nil => rfl
  | cons b bs ih =>
    simp only [List.length_cons] at h
    rw [Memory.writeBytes, ih _ (by omega), memory_read_write_other _ _ (by omega)]

theorem memory_read_writeBytes_at (m : List Host.Cell) (a : Nat) (bs : List Byte) (i : Nat) (h : i < bs.length) :
    Memory.read (Memory.writeBytes m a bs) (a + i) = some bs[i] := by
  induction bs generalizing m a i with
  | nil => simp at h
  | cons b bs ih =>
    rw [Memory.writeBytes]
    cases i with
    | zero =>
      simp only [Nat.add_zero]
      rw [memory_read_writeBytes_below _ _ (by omega), memory_read_write_same]; rfl
    | succ i =>
      rw [show a + (i + 1) = a + 1 + i by omega, ih _ _ _ (by simpa using h)]
      rfl

/-- The bytes of the array after a store: the stored ones. -/
theorem chip_bytes_writeBytes (c : Chip) (a : Nat) (bs : List Byte) :
    Chip.bytes { c with array := Memory.writeBytes c.array a bs } a bs.length = bs := by
  apply List.ext_getElem
  · simp [Chip.bytes]
  · intro i h₁ h₂
    simp [Chip.bytes, Chip.byte, memory_read_writeBytes_at c.array a bs i h₂]

@[simp] theorem chip_bytes_length (c : Chip) (a n : Nat) : (c.bytes a n).length = n := by simp [Chip.bytes]

/-- Every address outside the stored bytes reads as before. -/
theorem chip_byte_writeBytes_outside (c : Chip) {a x : Nat} (bs : List Byte) (h : x < a ∨ a + bs.length ≤ x) :
    Chip.byte { c with array := Memory.writeBytes c.array a bs } x = c.byte x := by
  rcases h with h | h
  · simp [Chip.byte, memory_read_writeBytes_below c.array bs h]
  · simp [Chip.byte, memory_read_writeBytes_above c.array bs h]

end Sys2Proof.Machine
end

