-- ==== Sys2Proof/Laws/Operands.lean ====
section
/-!
SUPPORT. One specification lemma for each operand function.
-/

namespace Sys2Proof.Machine

theorem encodeAddr_two (o : Word32) :
    encodeAddr o 2 = .ok ([(o >>> 8).setWidth 8, o.setWidth 8], 16) := rfl

theorem encodeAddr_three (o : Word32) :
    encodeAddr o 3 = .ok ([(o >>> 16).setWidth 8, (o >>> 8).setWidth 8, o.setWidth 8], 24) := rfl

theorem encodeAddr_other (o : Word32) {w : Byte} (h2 : w ≠ 2) (h3 : w ≠ 3) : encodeAddr o w = .error w := by
  rw [encodeAddr, if_neg h3, if_neg h2]

/-- The encoder succeeds only for the widths 2 and 3. -/
theorem encodeAddr_ok {o : Word32} {w : Byte} {bytes : List Byte} {bits : BitVec 6}
    (h : encodeAddr o w = .ok (bytes, bits)) :
    (w = 2 ∧ bytes = [(o >>> 8).setWidth 8, o.setWidth 8] ∧ bits = 16) ∨
      (w = 3 ∧ bytes = [(o >>> 16).setWidth 8, (o >>> 8).setWidth 8, o.setWidth 8] ∧ bits = 24) := by
  unfold encodeAddr at h
  split at h
  · next hw => simp only [Except.ok.injEq, Prod.mk.injEq] at h; exact .inr ⟨hw, h.1.symm, h.2.symm⟩
  · split at h
    · next hw => simp only [Except.ok.injEq, Prod.mk.injEq] at h; exact .inl ⟨hw, h.1.symm, h.2.symm⟩
    · cases h

@[simp] theorem inBounds_iff (o l : Word32) (g : Geometry) :
    inBounds o l g = true ↔ o.toNat + l.toNat ≤ g.size.toNat := by simp [inBounds]

@[simp] theorem fitBytes_length (n k : Nat) (l : List Byte) : (fitBytes n k l).length = n := by simp [fitBytes]

/-- A payload of the right length is received as it was given. -/
theorem fitBytes_exact (k : Nat) (l : List Byte) : fitBytes l.length k l = l := by
  apply List.ext_getElem
  · simp
  · intro i h₁ h₂
    simp [fitBytes, h₂]

@[simp] theorem zeros_length (n : Nat) : (zeros n).length = n := by simp [zeros]

/-- The request port takes a request exactly when it is well presented and the block is idle. -/
theorem portRefusal_none_iff (op : ReqOp) (l : Word32) (s : State) :
    portRefusal op l s = none ↔
      s.fsm = .idle ∧
        match op with
        | .write => ∃ d, s.wdata = some d ∧ d.length = l.toNat
        | _ => s.wdata = none := by
  cases op <;> cases h : s.wdata <;> by_cases hf : s.fsm = .idle <;> simp [portRefusal, State.busy, h, hf]

end Sys2Proof.Machine
end

