-- ==== Sys2Proof/Laws/State.lean ====
section
/-!
SUPPORT. What each named update of the state leaves in each field, true by unfolding: later proofs rewrite with these and
unfold no update.
-/

namespace Sys2Proof.Machine

/-! ### complete -/

section
variable (st : Status) (n : Word32) (d : List Byte) (s : State)

@[simp] theorem complete_geom : (complete st n d s).geom = s.geom := rfl
@[simp] theorem complete_bound : (complete st n d s).bound = s.bound := rfl
@[simp] theorem complete_csActive : (complete st n d s).csActive = s.csActive := rfl
@[simp] theorem complete_fsm : (complete st n d s).fsm = .idle := rfl
@[simp] theorem complete_req : (complete st n d s).req = s.req := rfl
@[simp] theorem complete_addr : (complete st n d s).addr = s.addr := rfl
@[simp] theorem complete_resp : (complete st n d s).resp = ⟨true, st.code, n, d⟩ := rfl
@[simp] theorem complete_err : (complete st n d s).err = s.err := rfl
@[simp] theorem complete_policy : (complete st n d s).policy = s.policy := rfl
@[simp] theorem complete_chip : (complete st n d s).chip = s.chip := rfl
@[simp] theorem complete_outstanding : (complete st n d s).outstanding = s.outstanding := rfl
@[simp] theorem complete_wdata : (complete st n d s).wdata = s.wdata := rfl
@[simp] theorem complete_agenda : (complete st n d s).agenda = s.agenda := rfl
@[simp] theorem complete_busAnswers : (complete st n d s).busAnswers = s.busAnswers := rfl
@[simp] theorem complete_claimAnswers : (complete st n d s).claimAnswers = s.claimAnswers := rfl
@[simp] theorem complete_registryAnswers : (complete st n d s).registryAnswers = s.registryAnswers := rfl
@[simp] theorem complete_draws : (complete st n d s).draws = s.draws := rfl
@[simp] theorem complete_trace : (complete st n d s).trace = s.trace := rfl
@[simp] theorem complete_events : (complete st n d s).events = s.events := rfl

end

/-! ### raise -/

section
variable (e : Status) (c : Option CfgOp) (w : Byte) (s : State)

@[simp] theorem raise_geom : (raise e c w s).geom = s.geom := rfl
@[simp] theorem raise_bound : (raise e c w s).bound = s.bound := rfl
@[simp] theorem raise_csActive : (raise e c w s).csActive = s.csActive := rfl
@[simp] theorem raise_fsm : (raise e c w s).fsm = .idle := rfl
@[simp] theorem raise_req : (raise e c w s).req = s.req := rfl
@[simp] theorem raise_addr : (raise e c w s).addr = s.addr := rfl
@[simp] theorem raise_resp : (raise e c w s).resp = ⟨true, e.code, 0, []⟩ := rfl
@[simp] theorem raise_err : (raise e c w s).err = errorRecord e c w s := rfl
@[simp] theorem raise_policy : (raise e c w s).policy = s.policy := rfl
@[simp] theorem raise_chip : (raise e c w s).chip = s.chip := rfl
@[simp] theorem raise_outstanding : (raise e c w s).outstanding = s.outstanding := rfl
@[simp] theorem raise_wdata : (raise e c w s).wdata = s.wdata := rfl
@[simp] theorem raise_agenda : (raise e c w s).agenda = s.agenda := rfl
@[simp] theorem raise_busAnswers : (raise e c w s).busAnswers = s.busAnswers := rfl
@[simp] theorem raise_claimAnswers : (raise e c w s).claimAnswers = s.claimAnswers := rfl
@[simp] theorem raise_registryAnswers : (raise e c w s).registryAnswers = s.registryAnswers := rfl
@[simp] theorem raise_draws : (raise e c w s).draws = s.draws := rfl
@[simp] theorem raise_trace : (raise e c w s).trace = s.trace := rfl
@[simp] theorem raise_events : (raise e c w s).events = s.events := rfl

end

/-! ### setErrPhase -/

section
variable (f : Fsm) (s : State)

@[simp] theorem setErrPhase_geom : (setErrPhase f s).geom = s.geom := rfl
@[simp] theorem setErrPhase_bound : (setErrPhase f s).bound = s.bound := rfl
@[simp] theorem setErrPhase_csActive : (setErrPhase f s).csActive = s.csActive := rfl
@[simp] theorem setErrPhase_fsm : (setErrPhase f s).fsm = s.fsm := rfl
@[simp] theorem setErrPhase_req : (setErrPhase f s).req = s.req := rfl
@[simp] theorem setErrPhase_addr : (setErrPhase f s).addr = s.addr := rfl
@[simp] theorem setErrPhase_resp : (setErrPhase f s).resp = s.resp := rfl
@[simp] theorem setErrPhase_err : (setErrPhase f s).err = { s.err with phase := f.code } := rfl
@[simp] theorem setErrPhase_policy : (setErrPhase f s).policy = s.policy := rfl
@[simp] theorem setErrPhase_chip : (setErrPhase f s).chip = s.chip := rfl
@[simp] theorem setErrPhase_outstanding : (setErrPhase f s).outstanding = s.outstanding := rfl
@[simp] theorem setErrPhase_wdata : (setErrPhase f s).wdata = s.wdata := rfl
@[simp] theorem setErrPhase_agenda : (setErrPhase f s).agenda = s.agenda := rfl
@[simp] theorem setErrPhase_busAnswers : (setErrPhase f s).busAnswers = s.busAnswers := rfl
@[simp] theorem setErrPhase_claimAnswers : (setErrPhase f s).claimAnswers = s.claimAnswers := rfl
@[simp] theorem setErrPhase_registryAnswers : (setErrPhase f s).registryAnswers = s.registryAnswers := rfl
@[simp] theorem setErrPhase_draws : (setErrPhase f s).draws = s.draws := rfl
@[simp] theorem setErrPhase_trace : (setErrPhase f s).trace = s.trace := rfl
@[simp] theorem setErrPhase_events : (setErrPhase f s).events = s.events := rfl

end

/-! ### goto -/

section
variable (f : Fsm) (s : State)

@[simp] theorem goto_geom : (goto f s).geom = s.geom := rfl
@[simp] theorem goto_bound : (goto f s).bound = s.bound := rfl
@[simp] theorem goto_csActive : (goto f s).csActive = s.csActive := rfl
@[simp] theorem goto_fsm : (goto f s).fsm = f := rfl
@[simp] theorem goto_req : (goto f s).req = s.req := rfl
@[simp] theorem goto_addr : (goto f s).addr = s.addr := rfl
@[simp] theorem goto_resp : (goto f s).resp = s.resp := rfl
@[simp] theorem goto_err : (goto f s).err = s.err := rfl
@[simp] theorem goto_policy : (goto f s).policy = s.policy := rfl
@[simp] theorem goto_chip : (goto f s).chip = s.chip := rfl
@[simp] theorem goto_outstanding : (goto f s).outstanding = s.outstanding := rfl
@[simp] theorem goto_wdata : (goto f s).wdata = s.wdata := rfl
@[simp] theorem goto_agenda : (goto f s).agenda = s.agenda := rfl
@[simp] theorem goto_busAnswers : (goto f s).busAnswers = s.busAnswers := rfl
@[simp] theorem goto_claimAnswers : (goto f s).claimAnswers = s.claimAnswers := rfl
@[simp] theorem goto_registryAnswers : (goto f s).registryAnswers = s.registryAnswers := rfl
@[simp] theorem goto_draws : (goto f s).draws = s.draws := rfl
@[simp] theorem goto_trace : (goto f s).trace = s.trace := rfl
@[simp] theorem goto_events : (goto f s).events = s.events := rfl

end

/-! ### acceptRequest -/

section
variable (op : ReqOp) (o l : Word32) (s : State)

@[simp] theorem acceptRequest_geom : (acceptRequest op o l s).geom = s.geom := rfl
@[simp] theorem acceptRequest_bound : (acceptRequest op o l s).bound = s.bound := rfl
@[simp] theorem acceptRequest_csActive : (acceptRequest op o l s).csActive = s.csActive := rfl
@[simp] theorem acceptRequest_fsm : (acceptRequest op o l s).fsm = s.fsm := rfl
@[simp] theorem acceptRequest_req : (acceptRequest op o l s).req = ⟨op, o, l, reqData op l s.wdata⟩ := rfl
@[simp] theorem acceptRequest_addr : (acceptRequest op o l s).addr = s.addr := rfl
@[simp] theorem acceptRequest_resp : (acceptRequest op o l s).resp = clearedResponse := rfl
@[simp] theorem acceptRequest_err : (acceptRequest op o l s).err = clearedError := rfl
@[simp] theorem acceptRequest_policy : (acceptRequest op o l s).policy = s.policy := rfl
@[simp] theorem acceptRequest_chip : (acceptRequest op o l s).chip = s.chip := rfl
@[simp] theorem acceptRequest_outstanding : (acceptRequest op o l s).outstanding = s.outstanding := rfl
@[simp] theorem acceptRequest_wdata : (acceptRequest op o l s).wdata = none := rfl
@[simp] theorem acceptRequest_agenda : (acceptRequest op o l s).agenda = s.agenda := rfl
@[simp] theorem acceptRequest_busAnswers : (acceptRequest op o l s).busAnswers = s.busAnswers := rfl
@[simp] theorem acceptRequest_claimAnswers : (acceptRequest op o l s).claimAnswers = s.claimAnswers := rfl
@[simp] theorem acceptRequest_registryAnswers : (acceptRequest op o l s).registryAnswers = s.registryAnswers := rfl
@[simp] theorem acceptRequest_draws : (acceptRequest op o l s).draws = s.draws := rfl
@[simp] theorem acceptRequest_trace : (acceptRequest op o l s).trace = s.trace := rfl
@[simp] theorem acceptRequest_events : (acceptRequest op o l s).events = s.events := rfl

end

/-! ### acceptConfig -/

section
variable (s : State)

@[simp] theorem acceptConfig_geom : (acceptConfig s).geom = s.geom := rfl
@[simp] theorem acceptConfig_bound : (acceptConfig s).bound = s.bound := rfl
@[simp] theorem acceptConfig_csActive : (acceptConfig s).csActive = s.csActive := rfl
@[simp] theorem acceptConfig_fsm : (acceptConfig s).fsm = s.fsm := rfl
@[simp] theorem acceptConfig_req : (acceptConfig s).req = s.req := rfl
@[simp] theorem acceptConfig_addr : (acceptConfig s).addr = s.addr := rfl
@[simp] theorem acceptConfig_resp : (acceptConfig s).resp = clearedResponse := rfl
@[simp] theorem acceptConfig_err : (acceptConfig s).err = clearedError := rfl
@[simp] theorem acceptConfig_policy : (acceptConfig s).policy = s.policy := rfl
@[simp] theorem acceptConfig_chip : (acceptConfig s).chip = s.chip := rfl
@[simp] theorem acceptConfig_outstanding : (acceptConfig s).outstanding = s.outstanding := rfl
@[simp] theorem acceptConfig_wdata : (acceptConfig s).wdata = s.wdata := rfl
@[simp] theorem acceptConfig_agenda : (acceptConfig s).agenda = s.agenda := rfl
@[simp] theorem acceptConfig_busAnswers : (acceptConfig s).busAnswers = s.busAnswers := rfl
@[simp] theorem acceptConfig_claimAnswers : (acceptConfig s).claimAnswers = s.claimAnswers := rfl
@[simp] theorem acceptConfig_registryAnswers : (acceptConfig s).registryAnswers = s.registryAnswers := rfl
@[simp] theorem acceptConfig_draws : (acceptConfig s).draws = s.draws := rfl
@[simp] theorem acceptConfig_trace : (acceptConfig s).trace = s.trace := rfl
@[simp] theorem acceptConfig_events : (acceptConfig s).events = s.events := rfl

end

/-! ### takeBusAnswer -/

section
variable (s : State)

@[simp] theorem takeBusAnswer_geom : (takeBusAnswer s).geom = s.geom := rfl
@[simp] theorem takeBusAnswer_bound : (takeBusAnswer s).bound = s.bound := rfl
@[simp] theorem takeBusAnswer_csActive : (takeBusAnswer s).csActive = s.csActive := rfl
@[simp] theorem takeBusAnswer_fsm : (takeBusAnswer s).fsm = s.fsm := rfl
@[simp] theorem takeBusAnswer_req : (takeBusAnswer s).req = s.req := rfl
@[simp] theorem takeBusAnswer_addr : (takeBusAnswer s).addr = s.addr := rfl
@[simp] theorem takeBusAnswer_resp : (takeBusAnswer s).resp = s.resp := rfl
@[simp] theorem takeBusAnswer_err : (takeBusAnswer s).err = s.err := rfl
@[simp] theorem takeBusAnswer_policy : (takeBusAnswer s).policy = s.policy := rfl
@[simp] theorem takeBusAnswer_chip : (takeBusAnswer s).chip = s.chip := rfl
@[simp] theorem takeBusAnswer_outstanding : (takeBusAnswer s).outstanding = s.outstanding := rfl
@[simp] theorem takeBusAnswer_wdata : (takeBusAnswer s).wdata = s.wdata := rfl
@[simp] theorem takeBusAnswer_agenda : (takeBusAnswer s).agenda = s.agenda := rfl
@[simp] theorem takeBusAnswer_busAnswers : (takeBusAnswer s).busAnswers = s.busAnswers.tail := rfl
@[simp] theorem takeBusAnswer_claimAnswers : (takeBusAnswer s).claimAnswers = s.claimAnswers := rfl
@[simp] theorem takeBusAnswer_registryAnswers : (takeBusAnswer s).registryAnswers = s.registryAnswers := rfl
@[simp] theorem takeBusAnswer_draws : (takeBusAnswer s).draws = s.draws + 1 := rfl
@[simp] theorem takeBusAnswer_trace : (takeBusAnswer s).trace = s.trace := rfl
@[simp] theorem takeBusAnswer_events : (takeBusAnswer s).events = s.events := rfl

end

/-! ### waitForBus -/

section
variable (s : State)

@[simp] theorem waitForBus_geom : (waitForBus s).geom = s.geom := rfl
@[simp] theorem waitForBus_bound : (waitForBus s).bound = s.bound := rfl
@[simp] theorem waitForBus_csActive : (waitForBus s).csActive = s.csActive := rfl
@[simp] theorem waitForBus_fsm : (waitForBus s).fsm = s.fsm := rfl
@[simp] theorem waitForBus_req : (waitForBus s).req = s.req := rfl
@[simp] theorem waitForBus_addr : (waitForBus s).addr = s.addr := rfl
@[simp] theorem waitForBus_resp : (waitForBus s).resp = s.resp := rfl
@[simp] theorem waitForBus_err : (waitForBus s).err = s.err := rfl
@[simp] theorem waitForBus_policy : (waitForBus s).policy = s.policy := rfl
@[simp] theorem waitForBus_chip : (waitForBus s).chip = s.chip := rfl
@[simp] theorem waitForBus_outstanding : (waitForBus s).outstanding = true := rfl
@[simp] theorem waitForBus_wdata : (waitForBus s).wdata = s.wdata := rfl
@[simp] theorem waitForBus_agenda : (waitForBus s).agenda = s.agenda := rfl
@[simp] theorem waitForBus_busAnswers : (waitForBus s).busAnswers = s.busAnswers.tail := rfl
@[simp] theorem waitForBus_claimAnswers : (waitForBus s).claimAnswers = s.claimAnswers := rfl
@[simp] theorem waitForBus_registryAnswers : (waitForBus s).registryAnswers = s.registryAnswers := rfl
@[simp] theorem waitForBus_draws : (waitForBus s).draws = s.draws + 1 := rfl
@[simp] theorem waitForBus_trace : (waitForBus s).trace = s.trace := rfl
@[simp] theorem waitForBus_events : (waitForBus s).events = s.events := rfl

end

/-! ### claimBus -/

section
variable (s : State)

@[simp] theorem claimBus_geom : (claimBus s).geom = s.geom := rfl
@[simp] theorem claimBus_bound : (claimBus s).bound = s.bound := rfl
@[simp] theorem claimBus_csActive : (claimBus s).csActive = s.csActive := rfl
@[simp] theorem claimBus_fsm : (claimBus s).fsm = s.fsm := rfl
@[simp] theorem claimBus_req : (claimBus s).req = s.req := rfl
@[simp] theorem claimBus_addr : (claimBus s).addr = s.addr := rfl
@[simp] theorem claimBus_resp : (claimBus s).resp = s.resp := rfl
@[simp] theorem claimBus_err : (claimBus s).err = s.err := rfl
@[simp] theorem claimBus_policy : (claimBus s).policy = s.policy := rfl
@[simp] theorem claimBus_chip : (claimBus s).chip = s.chip := rfl
@[simp] theorem claimBus_outstanding : (claimBus s).outstanding = s.outstanding := rfl
@[simp] theorem claimBus_wdata : (claimBus s).wdata = s.wdata := rfl
@[simp] theorem claimBus_agenda : (claimBus s).agenda = s.agenda := rfl
@[simp] theorem claimBus_busAnswers : (claimBus s).busAnswers = s.busAnswers := rfl
@[simp] theorem claimBus_claimAnswers : (claimBus s).claimAnswers = s.claimAnswers.tail := rfl
@[simp] theorem claimBus_registryAnswers : (claimBus s).registryAnswers = s.registryAnswers := rfl
@[simp] theorem claimBus_draws : (claimBus s).draws = s.draws + 1 := rfl
@[simp] theorem claimBus_trace : (claimBus s).trace = s.trace := rfl
@[simp] theorem claimBus_events : (claimBus s).events = s.events ++ [.claimBus] := rfl

end

/-! ### register -/

section
variable (s : State)

@[simp] theorem register_geom : (register s).geom = s.geom := rfl
@[simp] theorem register_bound : (register s).bound = s.bound := rfl
@[simp] theorem register_csActive : (register s).csActive = s.csActive := rfl
@[simp] theorem register_fsm : (register s).fsm = s.fsm := rfl
@[simp] theorem register_req : (register s).req = s.req := rfl
@[simp] theorem register_addr : (register s).addr = s.addr := rfl
@[simp] theorem register_resp : (register s).resp = s.resp := rfl
@[simp] theorem register_err : (register s).err = s.err := rfl
@[simp] theorem register_policy : (register s).policy = s.policy := rfl
@[simp] theorem register_chip : (register s).chip = s.chip := rfl
@[simp] theorem register_outstanding : (register s).outstanding = s.outstanding := rfl
@[simp] theorem register_wdata : (register s).wdata = s.wdata := rfl
@[simp] theorem register_agenda : (register s).agenda = s.agenda := rfl
@[simp] theorem register_busAnswers : (register s).busAnswers = s.busAnswers := rfl
@[simp] theorem register_claimAnswers : (register s).claimAnswers = s.claimAnswers := rfl
@[simp] theorem register_registryAnswers : (register s).registryAnswers = s.registryAnswers.tail := rfl
@[simp] theorem register_draws : (register s).draws = s.draws + 1 := rfl
@[simp] theorem register_trace : (register s).trace = s.trace := rfl
@[simp] theorem register_events : (register s).events = s.events ++ [.register s.entry] := rfl

end

/-! ### unregister -/

section
variable (s : State)

@[simp] theorem unregister_geom : (unregister s).geom = s.geom := rfl
@[simp] theorem unregister_bound : (unregister s).bound = s.bound := rfl
@[simp] theorem unregister_csActive : (unregister s).csActive = s.csActive := rfl
@[simp] theorem unregister_fsm : (unregister s).fsm = s.fsm := rfl
@[simp] theorem unregister_req : (unregister s).req = s.req := rfl
@[simp] theorem unregister_addr : (unregister s).addr = s.addr := rfl
@[simp] theorem unregister_resp : (unregister s).resp = s.resp := rfl
@[simp] theorem unregister_err : (unregister s).err = s.err := rfl
@[simp] theorem unregister_policy : (unregister s).policy = s.policy := rfl
@[simp] theorem unregister_chip : (unregister s).chip = s.chip := rfl
@[simp] theorem unregister_outstanding : (unregister s).outstanding = s.outstanding := rfl
@[simp] theorem unregister_wdata : (unregister s).wdata = s.wdata := rfl
@[simp] theorem unregister_agenda : (unregister s).agenda = s.agenda := rfl
@[simp] theorem unregister_busAnswers : (unregister s).busAnswers = s.busAnswers := rfl
@[simp] theorem unregister_claimAnswers : (unregister s).claimAnswers = s.claimAnswers := rfl
@[simp] theorem unregister_registryAnswers : (unregister s).registryAnswers = s.registryAnswers.tail := rfl
@[simp] theorem unregister_draws : (unregister s).draws = s.draws + 1 := rfl
@[simp] theorem unregister_trace : (unregister s).trace = s.trace := rfl
@[simp] theorem unregister_events : (unregister s).events = s.events ++ [.unregister s.entry] := rfl

end

/-! ### releaseDevice -/

section
variable (s : State)

@[simp] theorem releaseDevice_geom : (releaseDevice s).geom = ⟨0, 0⟩ := rfl
@[simp] theorem releaseDevice_bound : (releaseDevice s).bound = false := rfl
@[simp] theorem releaseDevice_csActive : (releaseDevice s).csActive = s.csActive := rfl
@[simp] theorem releaseDevice_fsm : (releaseDevice s).fsm = s.fsm := rfl
@[simp] theorem releaseDevice_req : (releaseDevice s).req = s.req := rfl
@[simp] theorem releaseDevice_addr : (releaseDevice s).addr = s.addr := rfl
@[simp] theorem releaseDevice_resp : (releaseDevice s).resp = s.resp := rfl
@[simp] theorem releaseDevice_err : (releaseDevice s).err = s.err := rfl
@[simp] theorem releaseDevice_policy : (releaseDevice s).policy = s.policy := rfl
@[simp] theorem releaseDevice_chip : (releaseDevice s).chip = s.chip := rfl
@[simp] theorem releaseDevice_outstanding : (releaseDevice s).outstanding = s.outstanding := rfl
@[simp] theorem releaseDevice_wdata : (releaseDevice s).wdata = s.wdata := rfl
@[simp] theorem releaseDevice_agenda : (releaseDevice s).agenda = s.agenda := rfl
@[simp] theorem releaseDevice_busAnswers : (releaseDevice s).busAnswers = s.busAnswers := rfl
@[simp] theorem releaseDevice_claimAnswers : (releaseDevice s).claimAnswers = s.claimAnswers := rfl
@[simp] theorem releaseDevice_registryAnswers : (releaseDevice s).registryAnswers = s.registryAnswers := rfl
@[simp] theorem releaseDevice_draws : (releaseDevice s).draws = s.draws := rfl
@[simp] theorem releaseDevice_trace : (releaseDevice s).trace = s.trace := rfl
@[simp] theorem releaseDevice_events : (releaseDevice s).events = s.events ++ [.releaseBus] := rfl

end

/-! ### phaseDone -/

section
variable (d : PhaseDesc) (tx : List Byte) (r : PhaseResult) (rx : List Byte) (c : Option Chip) (s : State)

@[simp] theorem phaseDone_geom : (phaseDone d tx r rx c s).geom = s.geom := rfl
@[simp] theorem phaseDone_bound : (phaseDone d tx r rx c s).bound = s.bound := rfl
@[simp] theorem phaseDone_csActive : (phaseDone d tx r rx c s).csActive = csAfter d.framing := rfl
@[simp] theorem phaseDone_fsm : (phaseDone d tx r rx c s).fsm = s.fsm := rfl
@[simp] theorem phaseDone_req : (phaseDone d tx r rx c s).req = s.req := rfl
@[simp] theorem phaseDone_addr : (phaseDone d tx r rx c s).addr = s.addr := rfl
@[simp] theorem phaseDone_resp : (phaseDone d tx r rx c s).resp = s.resp := rfl
@[simp] theorem phaseDone_err : (phaseDone d tx r rx c s).err = s.err := rfl
@[simp] theorem phaseDone_policy : (phaseDone d tx r rx c s).policy = s.policy := rfl
@[simp] theorem phaseDone_chip : (phaseDone d tx r rx c s).chip = c := rfl
@[simp] theorem phaseDone_outstanding : (phaseDone d tx r rx c s).outstanding = false := rfl
@[simp] theorem phaseDone_wdata : (phaseDone d tx r rx c s).wdata = s.wdata := rfl
@[simp] theorem phaseDone_agenda : (phaseDone d tx r rx c s).agenda = s.agenda := rfl
@[simp] theorem phaseDone_busAnswers : (phaseDone d tx r rx c s).busAnswers = s.busAnswers.tail := rfl
@[simp] theorem phaseDone_claimAnswers : (phaseDone d tx r rx c s).claimAnswers = s.claimAnswers := rfl
@[simp] theorem phaseDone_registryAnswers : (phaseDone d tx r rx c s).registryAnswers = s.registryAnswers := rfl
@[simp] theorem phaseDone_draws : (phaseDone d tx r rx c s).draws = s.draws + 1 := rfl
@[simp] theorem phaseDone_trace : (phaseDone d tx r rx c s).trace = s.trace ++ [⟨d, tx, r, if r = .ok then rx else []⟩] := rfl
@[simp] theorem phaseDone_events : (phaseDone d tx r rx c s).events = s.events := rfl

end

/-! ### Chip.openTxn -/

section
variable (c : Chip)

@[simp] theorem chip_openTxn_geom : c.openTxn.geom = c.geom := rfl
@[simp] theorem chip_openTxn_array : c.openTxn.array = c.array := rfl
@[simp] theorem chip_openTxn_base : c.openTxn.base = c.base := rfl
@[simp] theorem chip_openTxn_wel : c.openTxn.wel = c.wel := rfl
@[simp] theorem chip_openTxn_txnOpen : c.openTxn.txnOpen = true := rfl
@[simp] theorem chip_openTxn_txn : c.openTxn.txn = [] := rfl
@[simp] theorem chip_openTxn_clocked : c.openTxn.clocked = 0 := rfl
@[simp] theorem chip_openTxn_health : c.openTxn.health = .clean := rfl
@[simp] theorem chip_openTxn_out : c.openTxn.out = [] := rfl

end

/-! ### Chip.closeTxn -/

section
variable (c : Chip)

@[simp] theorem chip_closeTxn_geom : c.closeTxn.geom = c.geom := rfl
@[simp] theorem chip_closeTxn_array : c.closeTxn.array = c.array := rfl
@[simp] theorem chip_closeTxn_base : c.closeTxn.base = c.base := rfl
@[simp] theorem chip_closeTxn_wel : c.closeTxn.wel = c.wel := rfl
@[simp] theorem chip_closeTxn_txnOpen : c.closeTxn.txnOpen = false := rfl
@[simp] theorem chip_closeTxn_txn : c.closeTxn.txn = [] := rfl
@[simp] theorem chip_closeTxn_clocked : c.closeTxn.clocked = 0 := rfl
@[simp] theorem chip_closeTxn_health : c.closeTxn.health = .clean := rfl
@[simp] theorem chip_closeTxn_out : c.closeTxn.out = [] := rfl

end

end Sys2Proof.Machine
end

