-- ==== Sys2Proof/Laws/Ops.lean ====
section
/-!
SUPPORT. What each shared operation can do, said once: the provers cite these instead of unfolding the operations.
-/

namespace Sys2Proof.Machine

/-! ### Validation and configuration -/

/-- A started transfer is one of three: the width is not supported, the request is out of bounds, or the first phase is set. -/
theorem startTransfer_cases (s : State) :
    (s.geom.aw ≠ 2 ∧ s.geom.aw ≠ 3 ∧ startTransfer s = raise .unsupportedAddressWidth none s.geom.aw s) ∨
    (∃ bytes bits, encodeAddr s.req.offset s.geom.aw = .ok (bytes, bits) ∧
      inBounds s.req.offset s.req.length s.geom = false ∧ startTransfer s = raise .outOfBounds none 0 s) ∨
    (∃ bytes bits, encodeAddr s.req.offset s.geom.aw = .ok (bytes, bits) ∧
      inBounds s.req.offset s.req.length s.geom = true ∧
      startTransfer s = { s with addr := latchOf bytes bits, fsm := firstPhase s.req.op }) := by
  by_cases h2 : s.geom.aw = 2
  · right
    have he := encodeAddr_two s.req.offset
    rw [← h2] at he
    cases hb : inBounds s.req.offset s.req.length s.geom
    · exact .inl ⟨_, _, he, rfl, by simp [startTransfer, he, hb]⟩
    · exact .inr ⟨_, _, he, rfl, by simp [startTransfer, he, hb]⟩
  · by_cases h3 : s.geom.aw = 3
    · right
      have he := encodeAddr_three s.req.offset
      rw [← h3] at he
      cases hb : inBounds s.req.offset s.req.length s.geom
      · exact .inl ⟨_, _, he, rfl, by simp [startTransfer, he, hb]⟩
      · exact .inr ⟨_, _, he, rfl, by simp [startTransfer, he, hb]⟩
    · exact .inl ⟨h2, h3, by simp [startTransfer, encodeAddr_other _ h2 h3]⟩

/-- BIND from the claim on ends in one of three: the claim failed, the registry failed, or the instance is bound. -/
theorem claimAndRegister_cases (v : Variant) (s : State) :
    claimAndRegister v s = raise .busClaimFailure (some .bind) 0 (claimBus s) ∨
    claimAndRegister v s =
      raise .registryFailure (some .bind) 0
        (releaseDevice (register { claimBus s with geom := variantGeometry v })) ∨
    claimAndRegister v s =
      complete .ok 0 [] { register { claimBus s with geom := variantGeometry v } with bound := true } := by
  unfold claimAndRegister
  dsimp only
  split
  · exact .inl rfl
  · split
    · exact .inr (.inl rfl)
    · exact .inr (.inr rfl)

/-! ### The chip keeps its array canonical -/

theorem chipRead_wf {g : Geometry} {k : Nat} {rest : List Byte} {c c' : Chip} (hw : Memory.wf c.array)
    (h : chipRead g k rest c = .ok c') : Memory.wf c'.array := by
  unfold chipRead at h
  split at h
  · cases h; exact hw
  · split at h
    · cases h; exact hw
    · cases h

theorem chipWrite_wf {g : Geometry} {k : Nat} {rest : List Byte} {c c' : Chip} (hw : Memory.wf c.array)
    (h : chipWrite g k rest c = .ok c') : Memory.wf c'.array := by
  unfold chipWrite at h
  split at h
  · cases h; exact hw
  · split at h
    · cases h
      split
      · exact memory_writeBytes_wf hw _ _
      · exact hw
    · cases h

theorem chipWren_wf {g : Geometry} {k : Nat} {rest : List Byte} {c c' : Chip} (hw : Memory.wf c.array)
    (h : chipWren g k rest c = .ok c') : Memory.wf c'.array := by
  unfold chipWren at h
  split at h
  · cases h; exact hw
  · cases h

theorem chipAct_wf {g : Geometry} {k : Nat} {c c' : Chip} (hw : Memory.wf c.array) (h : chipAct g k c = .ok c') :
    Memory.wf c'.array := by
  unfold chipAct at h
  split at h
  · cases h
  · split at h
    · exact chipRead_wf hw h
    · split at h
      · exact chipWrite_wf hw h
      · split at h
        · exact chipWren_wf hw h
        · cases h

theorem chipAbandon_wf {k : Nat} {c : Chip} (hw : Memory.wf c.array) : Memory.wf (chipAbandon k c).array := by
  unfold chipAbandon
  split
  · exact hw
  · split <;> exact hw

theorem chipDataFailed_wf {g : Geometry} {k n : Nat} {c : Chip} (hw : Memory.wf c.array) :
    Memory.wf (chipDataFailed g k n c).array := by
  unfold chipDataFailed
  split
  · exact hw
  · split
    · split
      · exact chipAbandon_wf hw
      · exact memory_writeBytes_wf hw _ _
    · exact hw

theorem chipScramble_wf {k : Nat} {c : Chip} : Memory.wf (chipScramble k c).array := List.Pairwise.nil

theorem chipPhase_wf {g : Geometry} {k : Nat} {d : PhaseDesc} {tx : List Byte} {r : PhaseResult} {c c' : Chip}
    (hw : Memory.wf c.array) (h : chipPhase g k d tx r c = .ok c') : Memory.wf c'.array := by
  unfold chipPhase at h
  split at h
  · split at h
    · exact chipAct_wf (c := { c.openTxn with txn := tx }) hw h
    · cases h; exact hw
  · cases h; exact hw
  · cases h; exact hw
  · cases h; exact chipAbandon_wf hw
  · split at h
    · split at h
      · exact chipAct_wf (c := { c with txn := c.txn ++ tx, clocked := if d.dir = .rx then d.bits / 8 else 0 }) hw h
      · cases h; exact chipDataFailed_wf hw
    · cases h; exact chipScramble_wf

theorem chipAtReset_wf {g : Geometry} {k n : Nat} {c : Chip} (hw : Memory.wf c.array) :
    Memory.wf (chipAtReset g k n c).array := by
  unfold chipAtReset
  split
  · split
    · exact chipDataFailed_wf hw
    · exact chipAbandon_wf hw
    · exact chipScramble_wf
  · exact hw

/-! ### The phase -/

/-- What an issued phase that gives a next state did: the bus engine stayed silent and the block waits, or it answered and the
block went on from the answer. -/
theorem issue_next {d : PhaseDesc} {tx : List Byte} {go : PhaseResult → List Byte → State → State} {s t : State}
    (h : issue d tx go s = .next t) :
    phaseFault d tx s = none ∧ chipMismatch s = false ∧
      ((nextBusAnswer s = .silent ∧ t = waitForBus s) ∨
        ∃ res given chip, nextBusAnswer s = .answered res given ∧ chipAfter d tx res s = .ok chip ∧
          t = go res (receivedBytes s.draws d res given s.chip chip)
            (phaseDone d tx res (receivedBytes s.draws d res given s.chip chip) chip s)) := by
  unfold issue at h
  split at h
  · cases h
  next hf =>
    split at h
    · cases h
    next hm =>
      refine ⟨hf, by simpa using hm, ?_⟩
      split at h
      · next hs => cases h; exact .inl ⟨hs, rfl⟩
      · next res given hs =>
        split at h
        · cases h
        · next chip hc => cases h; exact .inr ⟨res, given, chip, hs, hc, rfl⟩

/-- An answered phase gives a next state when the chip has a meaning for it. -/
theorem issue_answered {d : PhaseDesc} {tx : List Byte} (go : PhaseResult → List Byte → State → State) {s : State}
    {res : PhaseResult} {given : List Byte} {rest : List BusAnswer} {chip : Option Chip}
    (hf : phaseFault d tx s = none) (hm : chipMismatch s = false)
    (ha : s.busAnswers = .answered res given :: rest) (hc : chipAfter d tx res s = .ok chip) :
    issue d tx go s =
      .next (go res (receivedBytes s.draws d res given s.chip chip)
        (phaseDone d tx res (receivedBytes s.draws d res given s.chip chip) chip s)) := by
  simp [issue, hf, hm, nextBusAnswer, ha, hc]

/-- A phase instruction that gives a next state is the one on the phase port. -/
theorem inTurn_next {i : Instr} {s t : State} {o : Host.Outcome State Fault Refusal} (h : inTurn i s o = .next t) :
    phaseWord s = some (encode i) ∧ o = .next t := by
  unfold inTurn at h
  split at h
  · next hw => exact ⟨hw, h⟩
  · cases h

/-- What an answered phase does to an attached chip. -/
theorem chipAfter_ok {d : PhaseDesc} {tx : List Byte} {res : PhaseResult} {s : State} {chip : Option Chip}
    (h : chipAfter d tx res s = .ok chip) :
    (s.chip = none ∧ chip = none) ∨
      ∃ c c', s.chip = some c ∧ chip = some c' ∧
        chipPhase (chipGeometry s c) s.draws d tx res { c with geom := some (chipGeometry s c) } = .ok c' := by
  unfold chipAfter at h
  split at h
  · next hn => cases h; exact .inl ⟨hn, rfl⟩
  · next c hc =>
    split at h
    · next c' hp => cases h; exact .inr ⟨c, c', hc, rfl, hp⟩
    · cases h

/-- A chip command that gives a next state changes the chip, and otherwise only the count of draws. -/
theorem chipCommand_next {b : Byte} {act : Geometry → Nat → List Byte → Chip → Except Fault Chip} {s t : State}
    (h : chipCommand b act s = .next t) :
    ∃ c c' rest, s.chip = some c ∧ c.txn = b :: rest ∧ c.txnOpen = true ∧ c.health = .clean ∧
      act (chipGeometry s c) s.draws rest c = .ok c' ∧ t = { s with chip := some c', draws := s.draws + 1 } := by
  unfold chipCommand at h
  split at h
  · cases h
  next c hc =>
    split at h
    · cases h
    next x rest hx =>
      split at h
      next hg =>
        split at h
        · cases h
        next c' ha =>
          cases h
          obtain ⟨ho, hh, rfl⟩ := hg
          exact ⟨c, c', rest, hc, hx, ho, hh, ha, rfl⟩
      · cases h

/-! ### The step -/

/-- A step that runs an instruction is that instruction's `exec`. -/
theorem step_run {s s' : State} {i : Instr} (h : fetch s = .run i s') : step s = exec i s' := by simp [step, h]

theorem step_done {s : State} {o : Host.Outcome State Fault Refusal} (h : fetch s = .done o) : step s = o := by
  simp [step, h]

/-- The block's own move runs the phase whose word is on the phase port, or in IDLE does nothing. -/
theorem fetchPhase_cases (s : State) :
    (s.fsm = .idle ∧ fetchPhase s = .done (.next s)) ∨
    (∃ f, fetchPhase s = .done (.fault f)) ∨
    (s.fsm ≠ .idle ∧ ∃ w i, phaseWord s = some w ∧ decodePhase w = .ok i ∧ fetchPhase s = .run i s) := by
  cases hf : s.fsm
  case idle => exact .inl ⟨rfl, by simp [fetchPhase, hf]⟩
  case reserved6 => exact .inr (.inl ⟨.reservedFsm, by simp [fetchPhase, hf]⟩)
  case reserved7 => exact .inr (.inl ⟨.reservedFsm, by simp [fetchPhase, hf]⟩)
  all_goals
    right
    cases hw : phaseWord s with
    | none => exact .inl ⟨.phaseNotIssued, by simp [fetchPhase, hf, hw]⟩
    | some w =>
      cases hd : decodePhase w with
      | error e => exact .inl ⟨.phaseNotIssued, by simp [fetchPhase, hf, hw, hd]⟩
      | ok i => exact .inr ⟨by simp, w, i, rfl, hd, by simp [fetchPhase, hf, hw, hd]⟩

end Sys2Proof.Machine
end

