-- ==== Sys2Proof/Laws/Chip.lean ====
section
/-!
SUPPORT. What the chip's operations leave: how a transaction splits, that a phase keeps the chip's geometry, and that a phase
with the End flag closes the transaction.
-/

namespace Sys2Proof.Machine

/-- Address bytes of the right number split off the data that follow (R192). -/
theorem splitAddress_append {g : Geometry} {address data : List Byte} (h : address.length = g.aw.toNat) :
    splitAddress g (address ++ data) = some (beNat address, data) := by
  simp [splitAddress, ← h]

/-- Address bytes with no data after them. -/
theorem splitAddress_exact {g : Geometry} {address : List Byte} (h : address.length = g.aw.toNat) :
    splitAddress g address = some (beNat address, []) := by
  simp [splitAddress, ← h]

/-- The chip's end of a transaction, answered OK: it is closed, and the chip's geometry is as before. -/
theorem chipAct_closed {g : Geometry} {k : Nat} {c c' : Chip} (h : chipAct g k c = .ok c') :
    c'.txnOpen = false ∧ c'.geom = c.geom := by
  unfold chipAct chipRead chipWrite chipWren at h
  repeat' split at h
  all_goals first
    | (cases h; done)
    | (simp only [Except.ok.injEq] at h; subst h; exact ⟨rfl, rfl⟩)

theorem chipAbandon_closed (k : Nat) (c : Chip) :
    (chipAbandon k c).txnOpen = false ∧ (chipAbandon k c).geom = c.geom := by
  unfold chipAbandon
  repeat' split
  all_goals exact ⟨rfl, rfl⟩

theorem chipDataFailed_closed (g : Geometry) (k n : Nat) (c : Chip) :
    (chipDataFailed g k n c).txnOpen = false ∧ (chipDataFailed g k n c).geom = c.geom := by
  unfold chipDataFailed
  repeat' split
  all_goals first
    | exact ⟨rfl, rfl⟩
    | exact chipAbandon_closed k c

/-- A phase with the End flag closes the chip's transaction, whatever its answer (R114, R192). -/
theorem chipPhase_end {g : Geometry} {k : Nat} {d : PhaseDesc} {tx : List Byte} {r : PhaseResult} {c c' : Chip}
    (h : chipPhase g k d tx r c = .ok c') (he : framingEnds d.framing = true) : c'.txnOpen = false := by
  unfold chipPhase at h
  split at h
  · split at h
    · exact (chipAct_closed h).1
    · cases h; rfl
  · simp_all [framingEnds]
  · simp_all [framingEnds]
  · cases h; exact (chipAbandon_closed k c).1
  · split at h
    · split at h
      · exact (chipAct_closed h).1
      · cases h; exact (chipDataFailed_closed g k _ c).1
    · cases h; rfl

/-- No phase changes the chip's geometry. -/
theorem chipPhase_geom {g : Geometry} {k : Nat} {d : PhaseDesc} {tx : List Byte} {r : PhaseResult} {c c' : Chip}
    (h : chipPhase g k d tx r c = .ok c') : c'.geom = c.geom := by
  unfold chipPhase at h
  split at h
  · split at h
    · exact (chipAct_closed h).2.trans rfl
    · cases h; rfl
  · cases h; rfl
  · cases h; rfl
  · cases h; exact (chipAbandon_closed k c).2
  · split at h
    · split at h
      · exact (chipAct_closed h).2.trans rfl
      · cases h; exact (chipDataFailed_closed g k _ c).2
    · cases h; rfl

/-- The chip has a meaning for every phase answered BusError (R197). -/
theorem chipPhase_busError (g : Geometry) (k : Nat) (d : PhaseDesc) (tx : List Byte) (c : Chip) :
    ∃ c', chipPhase g k d tx .busError c = .ok c' := by
  unfold chipPhase
  split
  · exact ⟨_, rfl⟩
  · exact ⟨_, rfl⟩
  · exact ⟨_, rfl⟩
  · exact ⟨_, rfl⟩
  · split <;> exact ⟨_, rfl⟩

/-- The chip at a reset: untouched with no phase outstanding, and otherwise as after that phase answered BusError (R241). -/
theorem chipInterrupted_cases (s : State) :
    chipInterrupted s = s.chip ∨
      ∃ d, s.outstanding = true ∧ phaseDesc s = some d ∧ chipAfter d (phasePayload s) .busError s = .ok (chipInterrupted s) := by
  unfold chipInterrupted
  split
  next ho =>
    cases hd : phaseDesc s with
    | none => exact .inl rfl
    | some d =>
      cases hc : chipAfter d (phasePayload s) .busError s with
      | error f => exact .inl (by simp [hc])
      | ok chip => exact .inr ⟨d, ho, rfl, by simp [hc]⟩
  · exact .inl rfl

/-- With no phase outstanding a reset finds the chip as it is. -/
theorem chipInterrupted_none {s : State} (h : s.outstanding = false) : chipInterrupted s = s.chip := by
  simp [chipInterrupted, h]

/-- The chip at a reset keeps the array's canonical form. -/
theorem chipInterrupted_wf {s : State} (hw : ∀ c ∈ s.chip, Memory.wf c.array) :
    ∀ c ∈ chipInterrupted s, Memory.wf c.array := by
  rcases chipInterrupted_cases s with h | ⟨d, _, _, h⟩
  · rw [h]; exact hw
  · intro c hc
    rcases chipAfter_ok h with ⟨_, hn⟩ | ⟨c₀, c', h₀, h', hp⟩
    · simp [hn] at hc
    · rw [h'] at hc
      simp only [Option.mem_def, Option.some.injEq] at hc
      subst hc
      exact chipPhase_wf (c := { c₀ with geom := some (chipGeometry s c₀) }) (hw c₀ (by simp [h₀])) hp

/-- The chip at a reset has no open transaction (R241). -/
theorem chipAtReset_closed (g : Geometry) (k n : Nat) (c : Chip) : (chipAtReset g k n c).txnOpen = false := by
  unfold chipAtReset
  split
  · split
    · exact (chipDataFailed_closed g k n c).1
    · exact (chipAbandon_closed k c).1
    · rfl
  · simp_all

/-- After a phase with the End flag the attached chip's array is canonical and its transaction closed. -/
theorem chipAfter_end {d : PhaseDesc} {tx : List Byte} {res : PhaseResult} {s : State} {chip : Option Chip}
    (h : chipAfter d tx res s = .ok chip) (hw : ∀ c ∈ s.chip, Memory.wf c.array) (he : framingEnds d.framing = true) :
    ∀ c ∈ chip, Memory.wf c.array ∧ c.txnOpen = false := by
  rcases chipAfter_ok h with ⟨_, rfl⟩ | ⟨c, c', hc, rfl, hp⟩
  · simp
  · intro x hx
    simp only [Option.mem_def, Option.some.injEq] at hx
    subst hx
    exact ⟨chipPhase_wf (c := { c with geom := some (chipGeometry s c) }) (hw c (by simp [hc])) hp, chipPhase_end hp he⟩

end Sys2Proof.Machine
end

