-- ==== Sys2Proof/Laws/Exec.lean ====
section
/-!
SUPPORT. What the instructions of each port can change, said once for all of them, and how a run is taken apart into steps.
-/

namespace Sys2Proof.Machine

/-! ### The port of a decoded instruction -/

theorem decodeRequest_port (d : BitVec 72) : (decodeRequest d).port = .request := by
  unfold decodeRequest
  dsimp only
  repeat' split
  all_goals rfl

theorem decodeConfig_port (d : BitVec 8) : (decodeConfig d).port = .config := by
  unfold decodeConfig
  dsimp only
  repeat' split
  all_goals rfl

theorem decodeCommand_port {b : Byte} {i : Instr} (h : decodeCommand b = .ok i) : i.port = .command := by
  unfold decodeCommand at h
  repeat' split at h
  all_goals first
    | (cases h; rfl)
    | cases h

theorem decodePhase_port {w : Nat} {i : Instr} (h : decodePhase w = .ok i) : i.port = .phase := by
  unfold decodePhase PhaseDesc.instr at h
  repeat' split at h
  all_goals first
    | (cases h; rfl)
    | cases h

/-! ### Phase instructions -/

/-- What the block does with an answer writes `fsm`, the response and the error record, and nothing else. -/
theorem after_frame (s : State) (res : PhaseResult) (rx : List Byte) (go : PhaseResult → List Byte → State → State)
    (h : go = afterWren ∨ go = afterCmd ∨ go = afterAddr ∨ go = afterDataRx ∨ go = afterDataTx ∨ go = afterRelease) :
    ∃ f r e, go res rx s = { s with fsm := f, resp := r, err := e } := by
  rcases h with rfl | rfl | rfl | rfl | rfl | rfl
  · unfold afterWren; split <;> exact ⟨_, _, _, rfl⟩
  · unfold afterCmd; split <;> exact ⟨_, _, _, rfl⟩
  · unfold afterAddr; split <;> exact ⟨_, _, _, rfl⟩
  · unfold afterDataRx; split <;> exact ⟨_, _, _, rfl⟩
  · unfold afterDataTx; split <;> exact ⟨_, _, _, rfl⟩
  · exact ⟨_, _, _, rfl⟩

/-- A phase instruction is one issued phase, run in turn, whose framing is the low bits of its word (R76, R77). -/
theorem exec_phase (i : Instr) (s : State) (h : i.port = .phase) :
    ∃ d tx go, exec i s = inTurn i s (issue d tx go s) ∧ encode i % 4 = d.framing.code ∧
      (go = afterWren ∨ go = afterCmd ∨ go = afterAddr ∨ go = afterDataRx ∨ go = afterDataTx ∨ go = afterRelease) := by
  cases i <;> try (cases h; done)
  case phDataRx n =>
    refine ⟨_, _, _, rfl, ?_, by simp⟩
    simp [encode, PhaseDesc.word, Framing.code, Direction.code]
    omega
  case phDataTx n =>
    refine ⟨_, _, _, rfl, ?_, by simp⟩
    simp [encode, PhaseDesc.word, Framing.code, Direction.code]
    omega
  all_goals exact ⟨_, _, _, rfl, by first | decide | rfl, by simp⟩

/-- What a phase instruction leaves unchanged, and the at most one phase it adds to the trace. -/
theorem exec_phase_frame {i : Instr} {s t : State} (h : i.port = .phase) (he : exec i s = .next t) :
    t.policy = s.policy ∧ t.agenda = s.agenda ∧ t.events = s.events ∧ t.geom = s.geom ∧ t.bound = s.bound ∧
      t.req = s.req ∧ t.addr = s.addr ∧ t.wdata = s.wdata ∧ ∃ more, t.trace = s.trace ++ more ∧ more.length ≤ 1 := by
  obtain ⟨d, tx, go, h1, _, h2⟩ := exec_phase i s h
  rw [h1] at he
  obtain ⟨_, he⟩ := inTurn_next he
  obtain ⟨_, _, ⟨_, rfl⟩ | ⟨res, given, chip, _, _, rfl⟩⟩ := issue_next he
  · exact ⟨rfl, rfl, rfl, rfl, rfl, rfl, rfl, rfl, [], by simp, by simp⟩
  · obtain ⟨f, r, e, hh⟩ := after_frame (phaseDone d tx res (receivedBytes s.draws d res given s.chip chip) chip s) res
      (receivedBytes s.draws d res given s.chip chip) go h2
    rw [hh]
    exact ⟨rfl, rfl, rfl, rfl, rfl, rfl, rfl, rfl, [_], rfl, by simp⟩

/-! ### Requests, configuration operations and chip commands -/

/-- A started transfer writes the address latch, `fsm`, the response and the error record. -/
theorem startTransfer_frame (s : State) :
    ((startTransfer s).fsm = .idle ∨ (startTransfer s).fsm = .cmd ∨ (startTransfer s).fsm = .wren) ∧
      (startTransfer s).policy = s.policy ∧ (startTransfer s).trace = s.trace ∧ (startTransfer s).events = s.events ∧
      (startTransfer s).geom = s.geom ∧ (startTransfer s).bound = s.bound ∧ (startTransfer s).chip = s.chip := by
  rcases startTransfer_cases s with ⟨_, _, h⟩ | ⟨_, _, _, _, h⟩ | ⟨bytes, bits, _, _, h⟩ <;> rw [h]
  · exact ⟨.inl rfl, rfl, rfl, rfl, rfl, rfl, rfl⟩
  · exact ⟨.inl rfl, rfl, rfl, rfl, rfl, rfl, rfl⟩
  · refine ⟨?_, rfl, rfl, rfl, rfl, rfl, rfl⟩
    cases s.req.op <;> simp [firstPhase]

/-- A chip command changes the chip and the count of draws; a request or configuration operation runs in IDLE, issues no phase,
and only BIND and UNBIND write the geometry. -/
theorem exec_other {i : Instr} {s t : State} (hp : i.port ≠ .phase) (he : exec i s = .next t) :
    (s.fsm = .idle ∧ (t.fsm = .idle ∨ t.fsm = .cmd ∨ t.fsm = .wren) ∧ t.policy = s.policy ∧ t.trace = s.trace ∧
        (∃ more, t.events = s.events ++ more) ∧
        ((∃ v, i = .bind v) ∨ i = .unbind ∨ (t.geom = s.geom ∧ t.bound = s.bound))) ∨
      ∃ c, t = { s with chip := some c, draws := s.draws + 1 } := by
  cases i <;> try (exact absurd rfl hp)
  case cmdRead => obtain ⟨_, c, _, _, _, _, _, _, h⟩ := chipCommand_next he; exact .inr ⟨c, h⟩
  case cmdWrite => obtain ⟨_, c, _, _, _, _, _, _, h⟩ := chipCommand_next he; exact .inr ⟨c, h⟩
  case cmdWren => obtain ⟨_, c, _, _, _, _, _, _, h⟩ := chipCommand_next he; exact .inr ⟨c, h⟩
  case read o l | write o l | erase o l | zfill o l =>
    left
    simp only [exec, execRead, execWrite, execErase, execZfill] at he
    split at he
    · cases he
    next hp =>
      obtain ⟨hf, _⟩ := (portRefusal_none_iff _ _ _).1 hp
      cases he
      obtain ⟨a, b, c, d, e, f, g⟩ := startTransfer_frame (acceptRequest _ o l s)
      exact ⟨hf, a, b, c, ⟨[], d.trans (by simp [acceptRequest])⟩, .inr (.inr ⟨e, f⟩)⟩
  case sync o l | invalidRequest op r o l =>
    left
    simp only [exec, execSync, execInvalidRequest] at he
    split at he
    · cases he
    next hp =>
      obtain ⟨hf, _⟩ := (portRefusal_none_iff _ _ _).1 hp
      cases he
      exact ⟨hf, .inl rfl, rfl, rfl, ⟨[], by simp [complete, raise, acceptRequest]⟩, .inr (.inr ⟨rfl, rfl⟩)⟩
  all_goals
    have hf : s.fsm = .idle := by
      by_contra hb
      simp [exec, execBind, execUnbind, execInvalidConfig, State.busy, hb] at he
    left
  case bind v =>
    simp [exec, execBind, State.busy, hf] at he
    subst he
    refine ⟨hf, ?_⟩
    unfold unbindFirst
    rcases claimAndRegister_cases v
      (if (acceptConfig s).bound = true then releaseDevice (unregister (acceptConfig s)) else acceptConfig s)
      with h | h | h <;> rw [h] <;> split <;> refine ⟨.inl rfl, rfl, rfl, ?_, .inl ⟨v, rfl⟩⟩ <;>
      simp [raise, complete, claimBus, register, releaseDevice, unregister, acceptConfig]
  case unbind =>
    simp [exec, execUnbind, State.busy, hf] at he
    refine ⟨hf, ?_⟩
    split at he
    · unfold unbindBound at he
      split at he <;> subst he <;> refine ⟨.inl rfl, rfl, rfl, ?_, .inr (.inl rfl)⟩ <;>
        simp [raise, complete, releaseDevice, unregister, acceptConfig]
    · subst he
      exact ⟨.inl rfl, rfl, rfl, ⟨[], by simp [complete, acceptConfig]⟩, .inr (.inl rfl)⟩
  case invalidConfig op v r =>
    simp [exec, execInvalidConfig, State.busy, hf] at he
    subst he
    exact ⟨hf, .inl rfl, rfl, rfl, ⟨[], by simp [complete, raise, acceptConfig]⟩, .inr (.inr ⟨rfl, rfl⟩)⟩

/-! ### Runs -/

theorem run_zero (s : State) : Sys2Proof.core.run 0 s = .next s := rfl

theorem run_succ {s s' : State} (n : Nat) (h : step s = .next s') :
    Sys2Proof.core.run (n + 1) s = Sys2Proof.core.run n s' := by
  have h' : Sys2Proof.core.step s = .next s' := h
  simp only [Host.Core.run, h']

theorem run_stops {s : State} (n : Nat) (h : ∀ s', step s ≠ .next s') : ∀ t, Sys2Proof.core.run (n + 1) s ≠ .next t := by
  intro t
  cases hs : step s with
  | next s' => exact absurd hs (h s')
  | fault f =>
    have h' : Sys2Proof.core.step s = .fault f := hs
    simp [Host.Core.run, h']
  | refused r =>
    have h' : Sys2Proof.core.step s = .refused r := hs
    simp [Host.Core.run, h']

theorem run_add {s t : State} {m : Nat} (n : Nat) (h : Sys2Proof.core.run m s = .next t) :
    Sys2Proof.core.run (m + n) s = Sys2Proof.core.run n t := by
  induction m generalizing s with
  | zero => cases h; rw [Nat.zero_add]
  | succ m ih =>
    rw [Nat.succ_add]
    by_cases hs : ∃ s', step s = .next s'
    · obtain ⟨s', hs⟩ := hs
      rw [run_succ _ hs] at h ⊢
      exact ih h
    · exact absurd h (run_stops m (fun s' hs' => hs ⟨s', hs'⟩) t)

end Sys2Proof.Machine
end

