-- ==== Sys2Proof/Laws/PerInstr.lean ====
section
/-!
SUPPORT. A fact of every instruction, proved constructor by constructor: a well-formed instruction's word fits the width of
its port (R71, R76, R79, R84).
-/

namespace Sys2Proof.Laws.EncodesInWidth

open Sys2Proof

/-- The word of a well-formed instruction has no bit above its format. -/
def Statement (i : Instr) : Prop := i.wellFormed = true → encode i < 2 ^ i.port.width

theorem requestWord_lt (op : ReqOp) (r : BitVec 6) (o l : Word32) : requestWord op r o l < 2 ^ 72 := by
  have := op.code.isLt; have := r.isLt; have := o.isLt; have := l.isLt
  unfold requestWord; omega

theorem configWord_lt (op : CfgOp) (v : BitVec 2) (r : BitVec 5) : configWord op v r < 2 ^ 8 := by
  have := op.code.isLt; have := v.isLt; have := r.isLt
  unfold configWord; omega

theorem dataWord_lt {d : PhaseDesc} (h : validBits d.bits = true) (hd : d.framing.code + 4 * d.dir.code < 256) :
    d.word < 2 ^ 40 := by
  simp only [validBits, Bool.and_eq_true, decide_eq_true_eq] at h
  unfold PhaseDesc.word; omega

theorem read (offset length : Word32) : Statement (.read offset length) := fun _ => requestWord_lt _ _ _ _

theorem write (offset length : Word32) : Statement (.write offset length) := fun _ => requestWord_lt _ _ _ _

theorem erase (offset length : Word32) : Statement (.erase offset length) := fun _ => requestWord_lt _ _ _ _

theorem zfill (offset length : Word32) : Statement (.zfill offset length) := fun _ => requestWord_lt _ _ _ _

theorem sync (offset length : Word32) : Statement (.sync offset length) := fun _ => requestWord_lt _ _ _ _

theorem invalidRequest (op : ReqOp) (reserved : BitVec 6) (offset length : Word32) :
    Statement (.invalidRequest op reserved offset length) := fun _ => requestWord_lt _ _ _ _

theorem bind (variant : Variant) : Statement (.bind variant) := fun _ => configWord_lt _ _ _

theorem unbind : Statement .unbind := fun _ => configWord_lt _ _ _

theorem invalidConfig (op : CfgOp) (variant : BitVec 2) (reserved : BitVec 5) :
    Statement (.invalidConfig op variant reserved) := fun _ => configWord_lt _ _ _

theorem cmdRead : Statement .cmdRead := fun _ => by decide

theorem cmdWrite : Statement .cmdWrite := fun _ => by decide

theorem cmdWren : Statement .cmdWren := fun _ => by decide

theorem phWren : Statement .phWren := fun _ => by decide

theorem phCmd : Statement .phCmd := fun _ => by decide

theorem phAddr2 : Statement .phAddr2 := fun _ => by decide

theorem phAddr3 : Statement .phAddr3 := fun _ => by decide

theorem phDataRx (bits : Nat) : Statement (.phDataRx bits) := fun h =>
  dataWord_lt (d := ⟨.csEnd, .rx, bits⟩) h (by simp [Framing.code, Direction.code])

theorem phDataTx (bits : Nat) : Statement (.phDataTx bits) := fun h =>
  dataWord_lt (d := ⟨.csEnd, .tx, bits⟩) h (by simp [Framing.code, Direction.code])

theorem phRelease : Statement .phRelease := fun _ => by decide

end Sys2Proof.Laws.EncodesInWidth
end

