-- ==== Sys2Proof/Machine/Notation.lean ====
section
/-!
DEFINITION. The text notation of spec/30_encoding.md: requests and configuration operations as the test vectors write them
(R89), and the line of a phase on the phase port (R90). Nothing in a step reads it.
-/

namespace Sys2Proof.Machine

/-- One hexadecimal digit. -/
def hexDigit (n : Nat) : String :=
  ["0", "1", "2", "3", "4", "5", "6", "7", "8", "9", "A", "B", "C", "D", "E", "F"].getD (n % 16) "0"

/-- A byte as two hexadecimal digits (R89, R90). -/
def byteText (b : Byte) : String := hexDigit (b.toNat / 16) ++ hexDigit b.toNat

/-- A byte sequence in brackets, its bytes apart by spaces (R90). That a WRITE's data are written so too, where R89 writes commas, is
the model's choice (log entry 23). -/
def bytesText (bytes : List Byte) : String := "[" ++ String.intercalate " " (bytes.map byteText) ++ "]"

/-- The hexadecimal digits of a number, without leading zeros, of at most `fuel + 1` digits. -/
def hexText : Nat → Nat → String
  | 0, n => hexDigit n
  | fuel + 1, n => if n < 16 then hexDigit n else hexText fuel (n / 16) ++ hexDigit n

/-- A 32-bit number in hexadecimal (R89). -/
def wordText (w : Word32) : String := "0x" ++ hexText 7 w.toNat

/-- The decimal digits of a number, without leading zeros, of at most `fuel + 1` digits. -/
def decimalText : Nat → Nat → String
  | 0, n => hexDigit (n % 10)
  | fuel + 1, n => if n < 10 then hexDigit n else decimalText fuel (n / 10) ++ hexDigit (n % 10)

/-- The model string of a variant (R3). -/
def variantText : Variant → String
  | .mr25h128 => "mr25h128"
  | .mr25h256 => "mr25h256"
  | .mr25h10 => "mr25h10"
  | .mr25h40 => "mr25h40"

/-- The text of a request or configuration operation, with a WRITE's data (R89). The notation has none for a SYNC with operands,
for an illegal descriptor, for a chip command and for a phase descriptor. -/
def operationText (data : List Byte) : Instr → Option String
  | .read offset length => some ("READ " ++ wordText offset ++ ", " ++ wordText length)
  | .write offset length =>
    some ("WRITE " ++ wordText offset ++ ", " ++ wordText length ++ ", " ++ bytesText data)
  | .erase offset length => some ("ERASE " ++ wordText offset ++ ", " ++ wordText length)
  | .zfill offset length => some ("ZFILL " ++ wordText offset ++ ", " ++ wordText length)
  | .sync offset length => if offset = 0 ∧ length = 0 then some "SYNC" else none
  | .invalidRequest _ _ _ _ => none
  | .bind variant => some ("BIND " ++ variantText variant)
  | .unbind => some "UNBIND"
  | .invalidConfig _ _ _ => none
  | .cmdRead => none
  | .cmdWrite => none
  | .cmdWren => none
  | .phWren => none
  | .phCmd => none
  | .phAddr2 => none
  | .phAddr3 => none
  | .phDataRx _ => none
  | .phDataTx _ => none
  | .phRelease => none

/-- The names of the framings (R77). -/
def framingText : Framing → String
  | .csNone => "None"
  | .csBegin => "Begin"
  | .csEnd => "End"
  | .csBeginEnd => "BeginEnd"

/-- The names of the directions (R78); code 3 has none. -/
def directionText : Direction → String
  | .noData => "NONE"
  | .tx => "TX"
  | .rx => "RX"
  | .reserved => "reserved"

/-- The line of a phase (R90): descriptor, transmitted payload, the bus engine's answer, and the received bytes. -/
def PhaseRecord.text (p : PhaseRecord) : String :=
  "PH " ++ framingText p.desc.framing ++ " " ++ directionText p.desc.dir ++ " " ++ decimalText 20 p.desc.bits ++
    (if p.desc.dir = .tx then " " ++ bytesText p.tx else "") ++
    match p.res with
    | .ok => " -> OK" ++ (if p.desc.dir = .rx then " " ++ bytesText p.rx else "")
    | .busError => " -> BusError"

end Sys2Proof.Machine
end

