-- ==== Sys2Proof/Tests/Slice0.lean ====
section
/-!
SUPPORT. The model's own tests: what WellFormed refuses, the decoding of words written out from the spec's encodings, one or
two steps of each instruction with the results spec/95_test_vectors.md gives, and for each statement that has hypotheses a
state that meets them.
-/

namespace Sys2Proof.Tests

open Sys2Proof Sys2Proof.Machine

/-! ### WellFormed (R76, R81, R86) -/

theorem test_wf_reserved_zero : (Instr.invalidRequest .read 0 5 6).wellFormed = false := by decide

theorem test_wf_legal_bind : (Instr.invalidConfig .bind 3 0).wellFormed = false := by decide

theorem test_wf_legal_unbind : (Instr.invalidConfig .unbind 0 0).wellFormed = false := by decide

theorem test_wf_rx_not_whole_bytes : (Instr.phDataRx 12).wellFormed = false := by decide

theorem test_wf_tx_not_whole_bytes : (Instr.phDataTx 7).wellFormed = false := by decide

theorem test_wf_rx_too_long : (Instr.phDataRx 4294967296).wellFormed = false := by decide

theorem test_wf_tx_too_long : (Instr.phDataTx 4294967296).wellFormed = false := by decide

/-! ### Decoding: words from R70, R76 to R80, R84 to R87 and spec/95_test_vectors.md section 2.2 -/

theorem test_decode_read : decode .request 0x000000100000000000 = .ok (.read 0 16) := by decide

theorem test_decode_write : decode .request 0x000000040000010001 = .ok (.write 0x100 4) := by decide

theorem test_decode_erase : decode .request 0x000000020007FFFE02 = .ok (.erase 0x7FFFE 2) := by decide

/-- ZFILL's descriptor is ERASE's (R91). -/
theorem test_encode_zfill : encode (.zfill 0x7FFFE 2) = 0x000000020007FFFE02 := by decide

theorem test_decode_sync : decode .request 0x000000000000000003 = .ok (.sync 0 0) := by decide

theorem test_decode_invalid_request : decode .request 0x000000000000000007 = .ok (.invalidRequest .sync 1 0 0) := by decide

theorem test_decode_bind : decode .config 0x02 = .ok (.bind .mr25h256) ∧ decode .config 0x04 = .ok (.bind .mr25h10) := by
  decide

theorem test_decode_unbind : decode .config 0x01 = .ok .unbind := by decide

theorem test_decode_invalid_config :
    decode .config 0x07 = .ok (.invalidConfig .unbind 3 0) ∧ decode .config 0x80 = .ok (.invalidConfig .bind 0 0x10) := by
  decide

theorem test_decode_cmd_read : decode .command 0x03 = .ok .cmdRead := by decide

theorem test_decode_cmd_write : decode .command 0x02 = .ok .cmdWrite := by decide

theorem test_decode_cmd_wren : decode .command 0x06 = .ok .cmdWren := by decide

theorem test_decode_no_command : decode .command 0x05 = .error .notACommand := by decide

theorem test_decode_ph_wren : decode .phase 0x0000000807 = .ok .phWren := by decide

theorem test_decode_ph_cmd : decode .phase 0x0000000805 = .ok .phCmd := by decide

theorem test_decode_ph_addr2 : decode .phase 0x0000001004 = .ok .phAddr2 := by decide

theorem test_decode_ph_addr3 : decode .phase 0x0000001804 = .ok .phAddr3 := by decide

theorem test_decode_ph_data_rx : decode .phase 0x000000800A = .ok (.phDataRx 128) := by decide

theorem test_decode_ph_data_tx : decode .phase 0x0000001006 = .ok (.phDataTx 16) := by decide

theorem test_decode_ph_release : decode .phase 0x0000000002 = .ok .phRelease := by decide

theorem test_decode_ph_reserved : decode .phase 0x000000080D = .error .reservedDirection := by decide

/-! ### Small states -/

/-- A chip of the variant mr25h256 between transactions, with these bytes known. -/
def chip (array : List Host.Cell) (wel : Bool) : Chip :=
  { geom := some ⟨0x8000, 2⟩, array := array, base := 0, wel := wel, txnOpen := false, txn := [], clocked := 0,
    health := .clean, out := [] }

/-- That chip with an open transaction. -/
def open' (c : Chip) (txn : List Byte) (h : TxnHealth) : Chip := { c with txnOpen := true, txn := txn, health := h }

/-- The block bound to mr25h256 and idle, the bytes 77 88 at 0x20 of the chip. -/
def bound : State :=
  { State.reset with geom := ⟨0x8000, 2⟩, bound := true, chip := some (chip [(0x20, 0x77), (0x21, 0x88)] false) }

/-- The block bound to mr25h10, a chip of three address bytes not yet reached. -/
def bound3 : State :=
  { State.reset with
    geom := ⟨0x20000, 3⟩, bound := true, chip := some { chip [(0x1FFFF, 0x77)] true with geom := none } }

/-- WRITE 0x20, 2, [AA 55] in progress on mr25h256, in WREN or CMD. -/
def writing (f : Fsm) (a : List BusAnswer) : State :=
  { bound with fsm := f, req := ⟨.write, 0x20, 2, [0xAA, 0x55]⟩, addr := ⟨0, 0x20, 0, 16⟩, busAnswers := a }

/-- READ 0x20, 2 in progress on mr25h256, in CMD. -/
def reading (a : List BusAnswer) : State :=
  { bound with fsm := .cmd, req := ⟨.read, 0x20, 2, []⟩, addr := ⟨0, 0x20, 0, 16⟩, busAnswers := a }

/-- A request inside its transaction: ADDR, DATA or ABORT. -/
def inside (f : Fsm) (s : State) (c : Chip) : State := { s with fsm := f, csActive := true, chip := some c }

/-- The chip of `bound` during a transaction. -/
def during (wel : Bool) (txn : List Byte) (h : TxnHealth) : Chip := open' (chip [(0x20, 0x77), (0x21, 0x88)] wel) txn h

/-- ERASE 0x1FFFF, 1 in progress on mr25h10, in ADDR. -/
def erasing3 (a : List BusAnswer) : State :=
  { bound3 with
    fsm := .addr, csActive := true, req := ⟨.erase, 0x1FFFF, 1, [0]⟩, addr := ⟨0x01, 0xFF, 0xFF, 24⟩, busAnswers := a,
    chip := some (open' { chip [(0x1FFFF, 0x77)] true with geom := some ⟨0x20000, 3⟩ } [0x02] .clean) }

/-- The answer OK, with nothing received. -/
def ok : BusAnswer := .answered .ok []

/-- The answer BusError. -/
def bad : BusAnswer := .answered .busError []

/-- The outcome is a next state with this property. -/
def gives (o : Host.Outcome State Fault Refusal) (p : State → Bool) : Bool :=
  match o with
  | .next t => p t
  | .fault _ => false
  | .refused _ => false

/-- The outcome is this fault. -/
def faults (o : Host.Outcome State Fault Refusal) (f : Fault) : Bool :=
  match o with
  | .next _ => false
  | .fault g => g == f
  | .refused _ => false

/-- What the chip's array lists at an address. -/
def listed (s : State) (a : Nat) : Option Byte := s.chip.bind fun c => Memory.read c.array a

/-- The chip's latch, in a state with a chip. -/
def latch (s : State) : Bool := (s.chip.map (·.wel)).getD false

/-! ### One step of each instruction (spec/95_test_vectors.md) -/

/-- Section 2.3, `READ 0x7FFF, 1`. -/
theorem test_read_last_byte :
    gives (exec (.read 0x7FFF 1) bound) (fun t => t.fsm == .cmd && t.addr == ⟨0x7F, 0xFF, 0, 16⟩) = true := by decide

/-- Section 2.3, `READ 0xFFFFFFFF, 1`: the sum does not wrap. -/
theorem test_read_no_wrap :
    gives (exec (.read 0xFFFFFFFF 1) bound) (fun t =>
      t.fsm == .idle && t.resp.status == 3 && t.err == ⟨false, 0, 0, 0, 0xFFFFFFFF, 1⟩) = true := by decide

/-- Section 2.5, `WRITE 0x20, 2, [AA 55]`. -/
theorem test_write_latches_data :
    gives (exec (.write 0x20 2) { bound with wdata := some [0xAA, 0x55] }) (fun t =>
      t.fsm == .wren && t.req.data == [0xAA, 0x55] && t.wdata == none) = true := by decide

/-- Section 2.3, unbound `WRITE 0, 0, []`. -/
theorem test_write_unbound :
    gives (exec (.write 0 0) { State.reset with wdata := some [] }) (fun t =>
      t.resp.status == 1 && t.err == ⟨false, 1, 0, 0, 0, 0⟩) = true := by decide

/-- Section 2.6, `ERASE 0x1FFFF, 1`. -/
theorem test_erase_zeros :
    gives (exec (.erase 0x1FFFF 1) bound3) (fun t =>
      t.fsm == .wren && t.addr == ⟨0x01, 0xFF, 0xFF, 24⟩ && t.req.data == [0]) = true := by decide

/-- Section 2.6, `ERASE 0x1FFFF, 2`. -/
theorem test_erase_out_of_bounds :
    gives (exec (.erase 0x1FFFF 2) bound3) (fun t =>
      t.resp.status == 3 && t.err == ⟨false, 2, 0, 0, 0x1FFFF, 2⟩) = true := by decide

/-- Section 2.6, `ZFILL 0x1FFFF, 1`. -/
theorem test_zfill_is_erase : exec (.zfill 0x1FFFF 1) bound3 = exec (.erase 0x1FFFF 1) bound3 := rfl

/-- Section 2.7, 0x12345678_9ABCDEF0_03. -/
theorem test_sync_latches :
    gives (exec (.sync 0x9ABCDEF0 0x12345678) bound) (fun t =>
      t.resp == ⟨true, 0, 0, []⟩ && t.req == ⟨.sync, 0x9ABCDEF0, 0x12345678, []⟩ && t.trace == []) = true := by decide

/-- Section 2.3, 0x00000001_00009000_04: INVALID_REQUEST comes before OUT_OF_BOUNDS. -/
theorem test_invalid_request_first :
    gives (exec (.invalidRequest .read 1 0x9000 1) bound) (fun t =>
      t.resp.status == 6 && t.err == ⟨false, 0, 0, 0, 0x9000, 1⟩) = true := by decide

/-- Section 2.8, 0x06 while bound, claim OK, reg OK. -/
theorem test_bind_while_bound :
    gives (exec (.bind .mr25h40) { bound with claimAnswers := [.ok], registryAnswers := [.err, .ok] }) (fun t =>
      t.geom == ⟨0x80000, 3⟩ && t.bound && t.resp.status == 0 &&
        t.events == [.unregister ⟨0x8000, 1, 1, 1⟩, .releaseBus, .claimBus, .register ⟨0x80000, 1, 1, 1⟩]) = true := by
  decide

/-- Section 2.8, 0x02 while unbound, claim Err. -/
theorem test_bind_claim_fails :
    gives (exec (.bind .mr25h256) { State.reset with claimAnswers := [.err] }) (fun t =>
      !t.bound && t.geom == ⟨0, 0⟩ && t.resp.status == 4 && t.err == ⟨true, 0, 0, 0, 0, 0⟩ && t.events == [.claimBus]) =
        true := by decide

/-- Section 2.8, 0x01 while bound, unreg Err. -/
theorem test_unbind_registry_fails :
    gives (exec .unbind { bound with registryAnswers := [.err] }) (fun t =>
      !t.bound && t.geom == ⟨0, 0⟩ && t.resp.status == 5 && t.err == ⟨true, 1, 0, 0, 0, 0⟩) = true := by decide

/-- Section 2.8, 0x01 while unbound. -/
theorem test_unbind_unbound :
    gives (exec .unbind State.reset) (fun t => t.resp == ⟨true, 0, 0, []⟩ && t.events == []) = true := by decide

/-- Section 2.8, 0x03 while bound. -/
theorem test_invalid_config_keeps_geometry :
    gives (exec (.invalidConfig .unbind 1 0) bound) (fun t =>
      t.bound && t.geom == ⟨0x8000, 2⟩ && t.resp.status == 6 && t.err == ⟨true, 1, 0, 0, 0, 0⟩) = true := by decide

/-- Section 2.10, `[03 00 20]` then two bytes. -/
theorem test_cmd_read :
    gives (step { bound with agenda := [.wire [0x03, 0x00, 0x20] 2] }) (fun t =>
      (t.chip.map (·.out)) == some [0x77, 0x88]) = true := by decide

/-- Section 2.10, `[03 7F FF]` then two bytes: the second lies beyond the array. -/
theorem test_cmd_read_beyond :
    faults (step { bound with agenda := [.wire [0x03, 0x7F, 0xFF] 2] }) .chipAddressBeyondArray = true := by decide

/-- Section 2.10, `[02 00 20 AA]` with WEL 1. -/
theorem test_cmd_write :
    gives (step { bound with chip := some (chip [(0x20, 0x77)] true), agenda := [.wire [0x02, 0x00, 0x20, 0xAA] 0] })
      (fun t => listed t 0x20 == some 0xAA && !latch t) = true := by decide

/-- Section 2.10, `[02 00 20 AA]` with WEL 0. -/
theorem test_cmd_write_without_latch :
    gives (step { bound with agenda := [.wire [0x02, 0x00, 0x20, 0xAA] 0] })
      (fun t => listed t 0x20 == some 0x77 && !latch t) = true := by decide

/-- Section 2.10, `[06]`. -/
theorem test_cmd_wren : gives (step { bound with agenda := [.wire [0x06] 0] }) latch = true := by decide

/-- R192, R199: `[06]` with a byte clocked out is longer than one byte. -/
theorem test_cmd_wren_too_long :
    faults (step { bound with agenda := [.wire [0x06] 1] }) .unknownChipCommand = true := by decide

/-- Section 2.10, `[05]`. -/
theorem test_cmd_unknown : faults (step { bound with agenda := [.wire [0x05] 0] }) .unknownChipCommand = true := by decide

/-- Section 2.5, first row: WREN answered OK. -/
theorem test_ph_wren :
    gives (exec .phWren (writing .wren [ok])) (fun t => t.fsm == .cmd && latch t && !t.csActive) = true := by decide

/-- Section 2.5, second row: WREN answered BusError under Abort. -/
theorem test_ph_wren_fails :
    gives (exec .phWren (writing .wren [bad])) (fun t =>
      t.fsm == .idle && t.resp.status == 2 && t.err == ⟨false, 1, 1, 0, 0x20, 2⟩) = true := by decide

/-- Section 2.4, first row: CMD answered OK. -/
theorem test_ph_cmd :
    gives (exec .phCmd (reading [ok])) (fun t =>
      t.fsm == .addr && t.csActive && t.trace == [⟨⟨.csBegin, .tx, 8⟩, [0x03], .ok, []⟩]) = true := by decide

/-- Section 2.4, second row: CMD answered BusError under Abort. -/
theorem test_ph_cmd_fails :
    gives (exec .phCmd (reading [bad])) (fun t => t.fsm == .abort && t.csActive && t.err.phase == 2) = true := by decide

/-- Section 2.4, third row: ADDR answered BusError under Abort. -/
theorem test_ph_addr2_fails :
    gives (exec .phAddr2 (inside .addr (reading [bad]) (during false [0x03] .clean))) (fun t =>
      t.fsm == .abort && t.err.phase == 3 && t.trace == [⟨⟨.csNone, .tx, 16⟩, [0x00, 0x20], .busError, []⟩]) = true := by
  decide

/-- Section 2.4, sixth row: ADDR answered BusError under Permissive. -/
theorem test_ph_addr2_permissive :
    gives (exec .phAddr2 { inside .addr (reading [bad]) (during false [0x03] .clean) with policy := .permissive })
      (fun t => t.fsm == .data && t.err.phase == 0) = true := by decide

/-- Section 2.6, first row: the ADDR phase of three bytes. -/
theorem test_ph_addr3 :
    gives (exec .phAddr3 (erasing3 [ok])) (fun t =>
      t.fsm == .data && t.trace == [⟨⟨.csNone, .tx, 24⟩, [0x01, 0xFF, 0xFF], .ok, []⟩]) = true := by decide

/-- Section 2.4, first row: DATA answered OK. -/
theorem test_ph_data_rx :
    gives (exec (.phDataRx 16) (inside .data (reading [ok]) (during false [0x03, 0x00, 0x20] .clean))) (fun t =>
      t.fsm == .idle && !t.csActive && t.resp == ⟨true, 0, 2, [0x77, 0x88]⟩) = true := by decide

/-- Section 2.4, fourth row: DATA answered BusError. -/
theorem test_ph_data_rx_fails :
    gives (exec (.phDataRx 16) (inside .data (reading [bad]) (during false [0x03, 0x00, 0x20] .clean))) (fun t =>
      t.resp == ⟨true, 2, 0, []⟩ && t.err == ⟨false, 0, 4, 0, 0x20, 2⟩ && listed t 0x20 == some 0x77) = true := by decide

/-- Section 2.5, first row: DATA answered OK. -/
theorem test_ph_data_tx :
    gives (exec (.phDataTx 16) (inside .data (writing .data [ok]) (during true [0x02, 0x00, 0x20] .clean))) (fun t =>
      t.resp == ⟨true, 0, 2, []⟩ && listed t 0x20 == some 0xAA && listed t 0x21 == some 0x55 && !latch t) = true := by decide

/-- Section 2.5, seventh row: the latch was 0, and the array keeps its bytes although the status is OK. -/
theorem test_ph_data_tx_ignored :
    gives (exec (.phDataTx 16) (inside .data (writing .data [ok]) (during false [0x02, 0x00, 0x20] .clean))) (fun t =>
      t.resp == ⟨true, 0, 2, []⟩ && listed t 0x20 == some 0x77 && listed t 0x21 == some 0x88) = true := by decide

/-- Section 2.5, sixth row: the release phase's BusError is ignored. -/
theorem test_ph_release :
    gives (exec .phRelease { inside .abort (writing .abort [bad]) (during true [0x02] .failed) with
      err := ⟨false, 0, 2, 0, 0, 0⟩ }) (fun t =>
      t.fsm == .idle && !t.csActive && t.resp == ⟨true, 2, 0, []⟩ && t.err == ⟨false, 1, 2, 0, 0x20, 2⟩ &&
        listed t 0x20 == some 0x77) = true := by decide

/-! ### Reset, a power cycle and a reserved state (R241, R200, R47) -/

/-- R197 (a), R241: a reset of a WRITE whose command byte is outstanding closes the transaction and keeps the array. -/
theorem test_reset_while_outstanding :
    gives (step { writing .cmd [] with outstanding := true, agenda := [.reset] }) (fun t =>
      t.fsm == .idle && !t.outstanding && (t.chip.map (·.txnOpen)) == some false && listed t 0x20 == some 0x77) = true := by
  decide

/-- R200: the array keeps its bytes when power is lost. -/
theorem test_power_cycle_keeps_array :
    gives (step { bound with agenda := [.powerCycle] }) (fun t => !t.bound && listed t 0x20 == some 0x77) = true := by decide

/-- R47: a host's read in a reserved state. -/
theorem test_read_reserved_fsm :
    faults (step { bound with fsm := .reserved6, agenda := [.readReg .status] }) .reservedFsm = true := by decide

/-! ### The text notation (R89, R90; spec/95_test_vectors.md sections 2.4, 2.5 and 3) -/

theorem test_text_write : operationText [0xAA, 0x55] (.write 0x20 2) = some "WRITE 0x20, 0x2, [AA 55]" := by decide

theorem test_text_phase_tx :
    PhaseRecord.text ⟨⟨.csNone, .tx, 24⟩, [0x00, 0x00, 0x10], .busError, []⟩ = "PH None TX 24 [00 00 10] -> BusError" := by
  decide

theorem test_text_phase_rx :
    PhaseRecord.text ⟨⟨.csEnd, .rx, 16⟩, [], .ok, [0xA0, 0xA1]⟩ = "PH End RX 16 -> OK [A0 A1]" := by decide

/-! ### Witnesses: for each statement that has hypotheses, states and operands that meet them together

A conjunction lists one witness after the other, for the statement's clauses in their order. -/

/-- The bound block with what the environment does next. -/
def next' (a : List EnvAction) (s : State) : State := { s with agenda := a }

theorem witness_ResetAbandonsTheRequest : (next' [.reset] (writing .wren [])).agenda = .reset :: [] := rfl

/-- No phase outstanding: a closed transaction; a failed one; a WRITE whose address is not complete; a WRITE at 0x20 of two
bytes, with the addresses next to its target; a READ; a transaction that went on after a failure. -/
theorem witness_ResetEndsTheOpenTransaction :
    ((next' [.reset] bound).agenda = .reset :: [] ∧ (next' [.reset] bound).chip = some (chip [(0x20, 0x77), (0x21, 0x88)] false) ∧
      (next' [.reset] bound).outstanding = false ∧ (chip [(0x20, 0x77), (0x21, 0x88)] false).txnOpen = false) ∧
    ((inside .abort (writing .abort []) (during true [0x02] .failed)).chip = some (during true [0x02] .failed) ∧
      (during true [0x02] .failed).txnOpen = true ∧ (during true [0x02] .failed).health = .failed) ∧
    ((during true [0x02, 0] .clean).txnOpen = true ∧ (during true [0x02, 0] .clean).health = .clean ∧
      (during true [0x02, 0] .clean).txn = writeByte :: [0] ∧
      [(0 : Byte)].length < ((during true [0x02, 0] .clean).geom.getD ⟨0, 0⟩).aw.toNat) ∧
    ((inside .data (writing .data []) (during true [0x02, 0, 0x20] .clean)).chip = some (during true [0x02, 0, 0x20] .clean) ∧
      (during true [0x02, 0, 0x20] .clean).txn = writeByte :: [0, 0x20] ∧
      [(0 : Byte), 0x20].length = ((during true [0x02, 0, 0x20] .clean).geom.getD ⟨0, 0⟩).aw.toNat ∧
      0x1F < beNat [0, 0x20] ∧ beNat [0, 0x20] + (writing .data []).req.length.toNat ≤ 0x22) ∧
    ((during true [0x03, 0, 0x20] .clean).txnOpen = true ∧ (during true [0x03, 0, 0x20] .clean).health ≠ .continued ∧
      (during true [0x03, 0, 0x20] .clean).txn = readByte :: [0, 0x20]) ∧
    ((during true [0x02, 0, 0x20] .continued).txnOpen = true ∧ (during true [0x02, 0, 0x20] .continued).health = .continued) := by
  refine ⟨⟨rfl, rfl, rfl, rfl⟩, ⟨rfl, rfl, rfl⟩, ⟨rfl, rfl, rfl, by decide⟩, ⟨rfl, rfl, by decide, by decide, by decide⟩,
    ⟨rfl, by decide, rfl⟩, ⟨rfl, rfl⟩⟩

theorem witness_DecodeInvertsEncode :
    (Instr.phDataTx 4294967288).wellFormed = true ∧ (Instr.phDataRx 0).wellFormed = true ∧
    (Instr.invalidRequest .sync 0x3F 0xFFFFFFFF 0xFFFFFFFF).wellFormed = true ∧
    (Instr.invalidConfig .unbind 1 0).wellFormed = true ∧ (Instr.zfill 0 0).wellFormed = true := by decide

/-- Bytes next to the commands; a descriptor with direction 3, one with bit 4 set, one of 12 bits. -/
theorem witness_ReservedWordsAreRejected :
    ((0x01 : Byte) ≠ 0x03 ∧ (0x01 : Byte) ≠ 0x02 ∧ (0x01 : Byte) ≠ 0x06) ∧
    ((0x07 : Byte) ≠ 0x03 ∧ (0x07 : Byte) ≠ 0x02 ∧ (0x07 : Byte) ≠ 0x06) ∧
    (0x000000080D : BitVec 40).extractLsb' 2 2 = 3 ∧ (0x0000000814 : BitVec 40).extractLsb' 4 4 ≠ 0 ∧
    (0x0000000C05 : BitVec 40).extractLsb' 8 3 ≠ 0 := by decide

theorem witness_StepRunsThePresentedOperation :
    (bound.fsm = .idle ∧ (next' [.request 3 none] bound).agenda = .request 3 none :: []) ∧
    (bound.fsm = .idle ∧ (next' [.config 1] bound).agenda = .config 1 :: []) := ⟨⟨rfl, rfl⟩, ⟨rfl, rfl⟩⟩

/-- Nothing listed in a busy state; a pause in a busy state; nothing listed in IDLE; a reserved code. -/
theorem witness_StepIssuesThePhaseOnThePort :
    ((writing .wren []).agenda = [] ∧ (writing .wren []).fsm ≠ .idle ∧ (writing .wren []).fsm ≠ .reserved6 ∧
      (writing .wren []).fsm ≠ .reserved7 ∧ phaseWord (writing .wren []) = some 0x807 ∧
      decode .phase 0x807 = .ok .phWren) ∧
    ((next' [.pause] (reading [])).agenda = .pause :: [] ∧ reading [] = { next' [.pause] (reading []) with agenda := [] } ∧
      phaseWord (next' [.pause] (reading [])) = some 0x805 ∧ decode .phase 0x805 = .ok .phCmd) ∧
    (bound.agenda = [] ∧ bound.fsm = .idle) ∧
    (({ bound with fsm := .reserved6 } : State).agenda = [] ∧ ({ bound with fsm := .reserved6 } : State).fsm = .reserved6) := by
  refine ⟨⟨rfl, by decide, by decide, by decide, by decide, by decide⟩, ⟨rfl, rfl, by decide, by decide⟩, ⟨rfl, rfl⟩,
    ⟨rfl, rfl⟩⟩

theorem witness_StepRunsTheChipCommand :
    bound.fsm = .idle ∧ (next' [.wire [0x03, 0, 0x20] 2] bound).agenda = .wire (0x03 :: [0, 0x20]) 2 :: [] ∧
    bound.chip = some (chip [(0x20, 0x77), (0x21, 0x88)] false) ∧ decode .command (0x03 : Byte).toNat = .ok .cmdRead :=
  ⟨rfl, rfl, rfl, by decide⟩

/-! Sound busy states, one for each phase. -/

/-- READ 0x20, 2 in its DATA phase. -/
def readingData (a : List BusAnswer) : State := inside .data (reading a) (during false [0x03, 0, 0x20] .clean)

/-- WRITE 0x20, 2 in its DATA phase. -/
def writingData (a : List BusAnswer) : State := inside .data (writing .data a) (during true [0x02, 0, 0x20] .clean)

/-- READ 0x20, 2 in its ADDR phase. -/
def readingAddr (a : List BusAnswer) : State := inside .addr (reading a) (during false [0x03] .clean)

/-- WRITE 0x20, 2 about to be released. -/
def aborting (a : List BusAnswer) : State := inside .abort (writing .abort a) (during true [0x02] .failed)

/-- The four parts of the invariant, each decided. -/
theorem sound_bound : StateInv bound := ⟨by decide, by decide, by decide, by decide⟩

theorem sound_wren : StateInv (writing .wren []) := ⟨by decide, by decide, by decide, by decide⟩

theorem sound_cmd : StateInv (reading []) := ⟨by decide, by decide, by decide, by decide⟩

theorem sound_addr2 : StateInv (readingAddr []) := ⟨by decide, by decide, by decide, by decide⟩

theorem sound_addr3 : StateInv (erasing3 []) := ⟨by decide, by decide, by decide, by decide⟩

theorem sound_data_read : StateInv (readingData []) := ⟨by decide, by decide, by decide, by decide⟩

theorem sound_data_write : StateInv (writingData []) := ⟨by decide, by decide, by decide, by decide⟩

theorem sound_abort : StateInv (aborting []) := ⟨by decide, by decide, by decide, by decide⟩

/-- READ 0x20, 2 in its DATA phase under Permissive, after a failed CMD phase. -/
def readingOn (a : List BusAnswer) : State :=
  { inside .data (reading a) (during false [0x03, 0, 0x20] .continued) with policy := .permissive }

/-- WRITE 0x20, 2 in its DATA phase under Permissive, after a failed ADDR phase. -/
def writingOn (a : List BusAnswer) : State :=
  { inside .data (writing .data a) (during true [0x02, 0, 0x20] .failed) with policy := .permissive }

theorem sound_reading_on : StateInv (readingOn []) := ⟨by decide, by decide, by decide, by decide⟩

theorem sound_writing_on : StateInv (writingOn []) := ⟨by decide, by decide, by decide, by decide⟩

/-- A phase of that state is outstanding, and the environment resets the block. -/
def resetWhileOutstanding (s : State) : State := { s with outstanding := true, agenda := [.reset] }

/-- A phase outstanding at the reset, in each state: WREN; CMD of a READ and of a WRITE; ADDR of an undamaged transaction, and of
one that went on; DATA of a READ, of a WRITE, and of a transaction that went on; the release. -/
theorem witness_ResetEndsTheOpenTransaction_outstanding :
    StateInv (resetWhileOutstanding (writing .wren [])) ∧ StateInv (resetWhileOutstanding (reading [])) ∧
    StateInv (resetWhileOutstanding (writing .cmd [])) ∧
    (StateInv (resetWhileOutstanding (readingAddr [])) ∧ (during false [0x03] .clean).health = .clean) ∧
    (StateInv (resetWhileOutstanding (inside .addr (writing .addr []) (during true [0x02] .failed))) ∧
      (during true [0x02] .failed).health ≠ .clean) ∧
    StateInv (resetWhileOutstanding (readingData [])) ∧ StateInv (resetWhileOutstanding (writingData [])) ∧
    (StateInv (resetWhileOutstanding (writingOn [])) ∧ (during true [0x02, 0, 0x20] .failed).health ≠ .clean) ∧
    StateInv (resetWhileOutstanding (aborting [])) := by
  refine ⟨⟨?_, ?_, ?_, ?_⟩, ⟨?_, ?_, ?_, ?_⟩, ⟨?_, ?_, ?_, ?_⟩, ⟨⟨?_, ?_, ?_, ?_⟩, ?_⟩, ⟨⟨?_, ?_, ?_, ?_⟩, ?_⟩, ⟨?_, ?_, ?_, ?_⟩,
    ⟨?_, ?_, ?_, ?_⟩, ⟨⟨?_, ?_, ?_, ?_⟩, ?_⟩, ⟨?_, ?_, ?_, ?_⟩⟩ <;> decide

theorem witness_ResetEndsTheOpenTransaction_powerCycle :
    (next' [.powerCycle] (writing .wren [])).agenda = .powerCycle :: [] ∧
    ∃ u, step (next' [.reset] (writing .wren [])) = .next u := ⟨rfl, _, rfl⟩

theorem witness_ThePhaseMapGivesOneInstruction :
    (StateInv (writing .wren []) ∧ (writing .wren []).fsm = .wren) ∧ (StateInv (reading []) ∧ (reading []).fsm = .cmd) ∧
    (StateInv (readingAddr []) ∧ (readingAddr []).fsm = .addr ∧ (readingAddr []).geom.aw = 2) ∧
    (StateInv (erasing3 []) ∧ (erasing3 []).fsm = .addr ∧ (erasing3 []).geom.aw = 3) ∧
    (StateInv (readingData []) ∧ (readingData []).fsm = .data ∧ (readingData []).req.op = .read) ∧
    (StateInv (writingData []) ∧ (writingData []).fsm = .data ∧ (writingData []).req.op ≠ .read) ∧
    (StateInv (aborting []) ∧ (aborting []).fsm = .abort) :=
  ⟨⟨sound_wren, rfl⟩, ⟨sound_cmd, rfl⟩, ⟨sound_addr2, rfl, rfl⟩, ⟨sound_addr3, rfl, rfl⟩, ⟨sound_data_read, rfl, rfl⟩,
    ⟨sound_data_write, rfl, by decide⟩, ⟨sound_abort, rfl⟩⟩

theorem witness_PresentationsWaitWhileBusy :
    (writing .wren [ok]).fsm ≠ .idle ∧ (∃ t, step (next' [.request 3 none] (writing .wren [ok])) = .next t) ∧
    (next' [.request 3 none] (writing .wren [ok])).agenda = .request 3 none :: [] ∧
    (∃ t, step (next' [.config 1] (writing .wren [ok])) = .next t) ∧
    (next' [.config 1] (writing .wren [ok])).agenda = .config 1 :: [] :=
  ⟨by decide, ⟨_, rfl⟩, rfl, ⟨_, rfl⟩, rfl⟩

/-- A reserved code in `fsm`; an internal register; a response register before and after a completion, with the last status code
that has a meaning and the first that has none; a register readable at any time. -/
theorem witness_HostReadsChangeNothing :
    ((next' [.readReg .status] { bound with fsm := .reserved7 }).agenda = .readReg .status :: [] ∧
      (next' [.readReg .status] { bound with fsm := .reserved7 }).fsm = .reserved7) ∧
    ((next' [.readReg .reqOp] bound).agenda = .readReg .reqOp :: [] ∧ bound.fsm ≠ .reserved6 ∧ bound.fsm ≠ .reserved7) ∧
    ((next' [.readReg .retlen] bound).agenda = .readReg .retlen :: [] ∧ bound.resp.valid = false) ∧
    ((next' [.readReg .respStatus] { bound with resp := ⟨true, 6, 0, []⟩ }).agenda = .readReg .respStatus :: [] ∧
      (⟨true, 6, 0, []⟩ : Response).valid = true ∧ (⟨true, 6, 0, []⟩ : Response).status.toNat ≤ 6) ∧
    ((next' [.readReg .respStatus] { bound with resp := ⟨true, 7, 0, []⟩ }).agenda = .readReg .respStatus :: [] ∧
      (⟨true, 7, 0, []⟩ : Response).valid = true ∧ 6 < (⟨true, 7, 0, []⟩ : Response).status.toNat) ∧
    (next' [.readReg .status] bound).agenda = .readReg .status :: [] :=
  ⟨⟨rfl, rfl⟩, ⟨rfl, by decide, by decide⟩, ⟨rfl, rfl⟩, ⟨rfl, rfl, by decide⟩, ⟨rfl, rfl, by decide⟩, rfl⟩

/-- Both legal widths, and those next to them. -/
theorem witness_EncoderTruncatesBigEndian :
    ((2 : Byte) = 2 ∨ (2 : Byte) = 3) ∧ ((3 : Byte) = 2 ∨ (3 : Byte) = 3) ∧ ((1 : Byte) ≠ 2 ∧ (1 : Byte) ≠ 3) ∧
    ((4 : Byte) ≠ 2 ∧ (4 : Byte) ≠ 3) := by decide

/-- A request in the middle of the device, and one that ends at its last byte. -/
theorem witness_SoundStatesSendTheOffset :
    (StateInv (writingData []) ∧ (writingData []).fsm ≠ .idle) ∧ (StateInv (erasing3 []) ∧ (erasing3 []).fsm ≠ .idle) :=
  ⟨⟨sound_data_write, by decide⟩, ⟨sound_addr3, by decide⟩⟩

/-- `READ 0x8000, 0` and `READ 0, 0x8000` of width 2; `READ 0x1FFFF, 1` of width 3. -/
theorem witness_ReadStartsAtCmd :
    (bound.fsm = .idle ∧ bound.wdata = none ∧ (0x8000 : Word32).toNat + (0 : Word32).toNat ≤ bound.geom.size.toNat ∧
      (0 : Word32).toNat + (0x8000 : Word32).toNat ≤ bound.geom.size.toNat ∧ bound.geom.aw = 2) ∧
    (bound3.fsm = .idle ∧ bound3.wdata = none ∧ (0x1FFFF : Word32).toNat + (1 : Word32).toNat ≤ bound3.geom.size.toNat ∧
      bound3.geom.aw = 3) := by decide

/-- `WRITE 0x7FFF, 1, [AB]` of width 2 and `WRITE 0x20000, 0, []` of width 3. -/
theorem witness_WriteStartsAtWren :
    (({ bound with wdata := some [0xAB] } : State).fsm = .idle ∧
      ({ bound with wdata := some [0xAB] } : State).wdata = some [0xAB] ∧ [(0xAB : Byte)].length = (1 : Word32).toNat ∧
      (0x7FFF : Word32).toNat + (1 : Word32).toNat ≤ bound.geom.size.toNat ∧ bound.geom.aw = 2) ∧
    (({ bound3 with wdata := some [] } : State).fsm = .idle ∧ ({ bound3 with wdata := some [] } : State).wdata = some [] ∧
      ([] : List Byte).length = (0 : Word32).toNat ∧
      (0x20000 : Word32).toNat + (0 : Word32).toNat ≤ bound3.geom.size.toNat ∧ bound3.geom.aw = 3) := by
  refine ⟨⟨rfl, rfl, rfl, by decide, rfl⟩, ⟨rfl, rfl, rfl, by decide, rfl⟩⟩

/-- `ERASE 0, 0x8000` of width 2 and `ZFILL 0x1FFFF, 1` of width 3. -/
theorem witness_EraseAndZfillStartAtWren :
    (Instr.erase 0 0x8000 = .erase 0 0x8000 ∧ bound.fsm = .idle ∧ bound.wdata = none ∧
      (0 : Word32).toNat + (0x8000 : Word32).toNat ≤ bound.geom.size.toNat ∧ bound.geom.aw = 2) ∧
    (Instr.zfill 0x1FFFF 1 = .zfill 0x1FFFF 1 ∧ bound3.fsm = .idle ∧ bound3.wdata = none ∧
      (0x1FFFF : Word32).toNat + (1 : Word32).toNat ≤ bound3.geom.size.toNat ∧ bound3.geom.aw = 3) := by
  refine ⟨⟨rfl, rfl, rfl, by decide, rfl⟩, ⟨rfl, rfl, rfl, by decide, rfl⟩⟩

theorem witness_SyncCompletesAtOnce : State.reset.fsm = .idle ∧ State.reset.wdata = none := ⟨rfl, rfl⟩

/-- READ with bit 2 set; WRITE of one byte with bits 7:2 all set. -/
theorem witness_ReservedRequestBitsAreInvalid :
    ((0x000000010000900004 : BitVec 72).extractLsb' 2 6 ≠ 0 ∧ Presents .read 1 [] bound) ∧
    ((0x0000000100000000FD : BitVec 72).extractLsb' 2 6 ≠ 0 ∧
      Presents .write 1 [0xAB] { bound with wdata := some [0xAB] }) :=
  ⟨⟨by decide, rfl, rfl, rfl⟩, ⟨by decide, rfl, rfl, rfl⟩⟩

/-- The widths 4, 1 and 0, for READ, WRITE, ERASE and ZFILL. -/
theorem witness_UnsupportedWidthIssuesNoPhase :
    (Transfers .read 0 16 (.read 0 16) ∧ Presents .read 16 [] { bound with geom := ⟨0x8000, 4⟩ } ∧ (4 : Byte) ≠ 2 ∧
      (4 : Byte) ≠ 3) ∧
    (Transfers .write 0 1 (.write 0 1) ∧ Presents .write 1 [0] { bound with geom := ⟨0x8000, 1⟩, wdata := some [0] } ∧
      (1 : Byte) ≠ 2 ∧ (1 : Byte) ≠ 3) ∧
    (Transfers .erase 0 0 (.erase 0 0) ∧ Transfers .erase 0 0 (.zfill 0 0) ∧ Presents .erase 0 [] State.reset ∧
      State.reset.geom.aw ≠ 2 ∧ State.reset.geom.aw ≠ 3) :=
  ⟨⟨rfl, ⟨rfl, rfl, rfl⟩, by decide, by decide⟩, ⟨rfl, ⟨rfl, rfl, rfl⟩, by decide, by decide⟩,
    ⟨.inl rfl, .inr rfl, ⟨rfl, rfl, rfl⟩, by decide, by decide⟩⟩

/-- One byte beyond the end, for both widths; and the sum 0x100000000. -/
theorem witness_OutOfBoundsIssuesNoPhase :
    (Transfers .read 0x7FFF 2 (.read 0x7FFF 2) ∧ Presents .read 2 [] bound ∧ (bound.geom.aw = 2 ∨ bound.geom.aw = 3) ∧
      bound.geom.size.toNat < (0x7FFF : Word32).toNat + (2 : Word32).toNat) ∧
    (Transfers .erase 0x1FFFF 2 (.zfill 0x1FFFF 2) ∧ Presents .erase 2 [0, 0] bound3 ∧
      (bound3.geom.aw = 2 ∨ bound3.geom.aw = 3) ∧
      bound3.geom.size.toNat < (0x1FFFF : Word32).toNat + (2 : Word32).toNat) ∧
    (Transfers .write 0xFFFFFFFF 1 (.write 0xFFFFFFFF 1) ∧ Presents .write 1 [0] { bound with wdata := some [0] } ∧
      bound.geom.size.toNat < (0xFFFFFFFF : Word32).toNat + (1 : Word32).toNat) :=
  ⟨⟨rfl, ⟨rfl, rfl, rfl⟩, .inl rfl, by decide⟩, ⟨.inr rfl, ⟨rfl, rfl, rfl⟩, .inr rfl, by decide⟩,
    ⟨rfl, ⟨rfl, rfl, rfl⟩, by decide⟩⟩

theorem witness_UnboundRequestsComplete :
    State.reset.bound = false ∧ State.reset.geom = ⟨0, 0⟩ ∧ Presents .read 0 [] State.reset ∧
    Presents .write 0 [] { State.reset with wdata := some [] } ∧ Presents .erase 2 [0, 0] State.reset ∧
    Presents .sync 0 [] State.reset ∧ Transfers .read 0 0 (.read 0 0) :=
  ⟨rfl, rfl, ⟨rfl, rfl, rfl⟩, ⟨rfl, rfl, rfl⟩, ⟨rfl, rfl, rfl⟩, ⟨rfl, rfl, rfl⟩, rfl⟩

/-- No data; one byte too few; data with an op that carries none; the same with reserved bits set in the descriptor. -/
theorem witness_MalformedWriteDataIsRefused :
    (bound.fsm = .idle ∧ bound.wdata = none) ∧
    (({ bound with wdata := some [0] } : State).wdata = some [0] ∧ [(0 : Byte)].length ≠ (2 : Word32).toNat) ∧
    ((0x0000000200000020FD : BitVec 72).extractLsb' 0 2 = 1 ∧
      [(0 : Byte)].length ≠ ((0x0000000200000020FD : BitVec 72).extractLsb' 40 32).toNat ∧
      (0x000000010000900004 : BitVec 72).extractLsb' 0 2 ≠ 1) :=
  ⟨⟨rfl, rfl⟩, ⟨rfl, by decide⟩, by decide⟩

/-- The block with these answers of the collaborators to come. -/
def offered (a : CollabResult) (rs : List CollabResult) (s : State) : State :=
  { s with claimAnswers := [a], registryAnswers := rs }

/-- The block after reset, for each pair of answers and each variant. -/
theorem witness_BindWhileUnbound :
    (∀ a r, (offered a [r] State.reset).fsm = .idle ∧ (offered a [r] State.reset).bound = false ∧
      (offered a [r] State.reset).geom = ⟨0, 0⟩ ∧ (offered a [r] State.reset).claimAnswers = a :: [] ∧
      (offered a [r] State.reset).registryAnswers = r :: []) ∧
    ∀ v, (v, variantGeometry v) ∈ [(Variant.mr25h128, Geometry.mk 0x4000 2), (.mr25h256, ⟨0x8000, 2⟩),
      (.mr25h10, ⟨0x20000, 3⟩), (.mr25h40, ⟨0x80000, 3⟩)] := by
  refine ⟨fun _ _ => ⟨rfl, rfl, rfl, rfl, rfl⟩, fun v => ?_⟩
  cases v <;> decide

/-- The bound block, for each triple of answers. -/
theorem witness_BindWhileBoundUnbindsFirst :
    ∀ a u r, (offered a [u, r] bound).fsm = .idle ∧ (offered a [u, r] bound).bound = true ∧
      (offered a [u, r] bound).claimAnswers = a :: [] ∧ (offered a [u, r] bound).registryAnswers = u :: r :: [] :=
  fun _ _ _ => ⟨rfl, rfl, rfl, rfl⟩

/-- The bound block, for each answer of the registry; the block right after reset, with no answer listed. -/
theorem witness_UnbindAlwaysUnbinds :
    (bound.fsm = .idle ∧ bound.bound = true ∧ ({ bound with registryAnswers := [.ok] } : State).registryAnswers = .ok :: []) ∧
    ({ bound with registryAnswers := [.err] } : State).registryAnswers = .err :: [] ∧
    (State.reset.fsm = .idle ∧ State.reset.bound = false ∧ State.reset.registryAnswers = []) :=
  ⟨⟨rfl, rfl, rfl⟩, rfl, ⟨rfl, rfl, rfl⟩⟩

/-- 0x08, 0x80 and 0x03. -/
theorem witness_IllegalConfigurationIsInvalid :
    bound.fsm = .idle ∧ (0x08 : BitVec 8).extractLsb' 3 5 ≠ 0 ∧ (0x80 : BitVec 8).extractLsb' 3 5 ≠ 0 ∧
    ((0x03 : BitVec 8).extractLsb' 0 1 = 1 ∧ (0x03 : BitVec 8).extractLsb' 1 2 ≠ 0) := by decide

theorem witness_WrenPhaseUnderAbort :
    (writing .wren [ok]).fsm = .wren ∧ (writing .wren [ok]).req.op = .write ∧ (writing .wren [ok]).csActive = false ∧
    (writing .wren [ok]).policy = .abort ∧ ChipFits (writing .wren [ok]) ∧ (writing .wren [ok]).busAnswers = ok :: [] ∧
    (writing .wren [bad]).busAnswers = bad :: [] := by
  refine ⟨rfl, rfl, rfl, rfl, by decide, rfl, rfl⟩

theorem witness_CmdPhaseUnderAbort :
    ((reading [ok]).fsm = .cmd ∧ (reading [ok]).req.op = .read ∧ (reading [ok]).csActive = false ∧
      (reading [ok]).policy = .abort ∧ ChipFits (reading [ok]) ∧ (reading [bad]).busAnswers = bad :: []) ∧
    ((writing .cmd [ok]).fsm = .cmd ∧ (writing .cmd [ok]).req.op = .write ∧ (writing .cmd [ok]).csActive = false ∧
      ChipFits (writing .cmd [ok]) ∧ (writing .cmd [ok]).busAnswers = ok :: []) := by
  refine ⟨⟨rfl, rfl, rfl, rfl, by decide, rfl⟩, ⟨rfl, rfl, rfl, by decide, rfl⟩⟩

theorem witness_AddrPhaseUnderAbort :
    ((readingAddr [ok]).fsm = .addr ∧ (readingAddr [ok]).req.op ≠ .sync ∧ (readingAddr [ok]).geom.aw = 2 ∧
      (readingAddr [ok]).addr.bits = 16 ∧ (readingAddr [ok]).csActive = true ∧ (readingAddr [ok]).policy = .abort ∧
      ChipFits (readingAddr [ok]) ∧ (readingAddr [ok]).busAnswers = ok :: []) ∧
    ((erasing3 [bad]).fsm = .addr ∧ (erasing3 [bad]).req.op ≠ .sync ∧ (erasing3 [bad]).geom.aw = 3 ∧
      (erasing3 [bad]).addr.bits = 24 ∧ (erasing3 [bad]).csActive = true ∧ ChipFits (erasing3 [bad]) ∧
      (erasing3 [bad]).busAnswers = bad :: []) := by
  refine ⟨⟨rfl, by decide, rfl, rfl, rfl, rfl, by decide, rfl⟩, ⟨rfl, by decide, rfl, rfl, rfl, by decide, rfl⟩⟩

/-- READ 0x20, 2 in its DATA phase with no chip attached. -/
def detached (a : List BusAnswer) : State := { readingData a with chip := none }

theorem witness_DataPhaseOfReadDetached :
    (detached [.answered .ok [1, 2]]).fsm = .data ∧ (detached [.answered .ok [1, 2]]).req.op = .read ∧
    (detached [.answered .ok [1, 2]]).csActive = true ∧ (detached [.answered .ok [1, 2]]).chip = none ∧
    [(1 : Byte), 2].length = (detached [.answered .ok [1, 2]]).req.length.toNat ∧
    (detached [.answered .ok [1, 2]]).busAnswers = .answered .ok [1, 2] :: [] ∧
    (detached [.answered .busError [1, 2]]).busAnswers = .answered .busError [1, 2] :: [] :=
  ⟨rfl, rfl, rfl, rfl, rfl, rfl, rfl⟩

theorem witness_DataPhaseOfReadAttached :
    (readingData [ok]).fsm = .data ∧ (readingData [ok]).req.op = .read ∧ (readingData [ok]).csActive = true ∧
    (readingData [ok]).chip = some (during false [0x03, 0, 0x20] .clean) ∧
    (during false [0x03, 0, 0x20] .clean).geom = some (readingData [ok]).geom ∧
    (during false [0x03, 0, 0x20] .clean).txn = 0x03 :: [0, 0x20] ∧
    [(0 : Byte), 0x20].length = (readingData [ok]).geom.aw.toNat ∧
    beNat [0, 0x20] + (readingData [ok]).req.length.toNat ≤ (readingData [ok]).geom.size.toNat ∧
    (readingData [ok]).busAnswers = ok :: [] ∧ (readingData [bad]).busAnswers = bad :: [] := by
  refine ⟨rfl, rfl, rfl, rfl, rfl, rfl, rfl, by decide, rfl, rfl⟩

theorem witness_DataPhaseOfWriteCompletes :
    StateInv (writingData [ok]) ∧ ChipFits (writingData [ok]) ∧ (writingData [ok]).fsm = .data ∧
    (writingData [ok]).req.op = .write ∧ (writingData [ok]).busAnswers = ok :: [] ∧
    (writingData [bad]).busAnswers = bad :: [] ∧
    (writingData [ok]).chip = some (during true [0x02, 0, 0x20] .clean) ∧
    (during true [0x02, 0, 0x20] .clean).health = .clean ∧ beNat (latchedBytes (writingData [ok])) = 0x20 ∧
    (writingData [ok]).req.length.toNat = 2 ∧ (0x1F < 0x20 ∧ 0x20 + 2 ≤ 0x22) :=
  ⟨sound_data_write, by decide, rfl, rfl, rfl, rfl, rfl, rfl, by decide, rfl, by decide, by decide⟩

theorem witness_DataPhaseOfWriteCompletes_detached :
    StateInv { writingData [ok] with chip := none } ∧ ChipFits { writingData [ok] with chip := none } ∧
    ({ writingData [ok] with chip := none } : State).chip = none := by
  refine ⟨⟨?_, ?_, ?_, ?_⟩, ?_, rfl⟩ <;> decide

/-- With the latch set and clear, and for either answer. -/
theorem witness_DataPhaseOfWriteOnTheChip :
    (writingData [ok]).fsm = .data ∧ (writingData [ok]).req.op = .write ∧ (writingData [ok]).csActive = true ∧
    (writingData [ok]).chip = some (during true [0x02, 0, 0x20] .clean) ∧
    (during true [0x02, 0, 0x20] .clean).geom = some (writingData [ok]).geom ∧
    (during true [0x02, 0, 0x20] .clean).health = .clean ∧
    (during true [0x02, 0, 0x20] .clean).txn = 0x02 :: [0, 0x20] ∧
    [(0 : Byte), 0x20].length = (writingData [ok]).geom.aw.toNat ∧
    (writingData [ok]).req.data.length = (writingData [ok]).req.length.toNat ∧
    beNat [0, 0x20] + (writingData [ok]).req.length.toNat ≤ (writingData [ok]).geom.size.toNat ∧
    (during true [0x02, 0, 0x20] .clean).wel = true ∧ (during false [0x02, 0, 0x20] .clean).wel = false ∧
    (writingData [ok]).busAnswers = ok :: [] ∧ (writingData [bad]).busAnswers = bad :: [] := by
  refine ⟨rfl, rfl, rfl, rfl, rfl, rfl, rfl, rfl, rfl, by decide, rfl, rfl, rfl, rfl⟩

theorem witness_ReleasePhaseCompletes :
    (aborting [ok]).fsm = .abort ∧ (aborting [ok]).csActive = true ∧ ChipFits (aborting [ok]) ∧
    (aborting [ok]).busAnswers = ok :: [] ∧ (aborting [bad]).busAnswers = bad :: [] ∧
    (aborting [ok]).chip = some (during true [0x02] .failed) := by
  refine ⟨rfl, rfl, by decide, rfl, rfl, rfl⟩

/-- The state under Permissive. -/
def permissive (s : State) : State := { s with policy := .permissive }

/-- A next state under Permissive is one of this form. -/
theorem gives_permissive {o : Host.Outcome State Fault Refusal} (h : gives o (fun t => t.policy == .permissive) = true) :
    ∃ t, o = .next (permissive t) := by
  cases o with
  | next t =>
    have hp : t.policy = .permissive := by simpa [gives] using h
    exact ⟨t, by rw [permissive, ← hp]⟩
  | fault f => cases h
  | refused r => cases h

theorem witness_PermissiveGoesOn :
    (StateInv (permissive (writing .wren [bad])) ∧ ChipFits (permissive (writing .wren [bad])) ∧
      (permissive (writing .wren [bad])).policy = .permissive ∧ (writing .wren [bad]).busAnswers = bad :: [] ∧
      (writing .wren [bad]).fsm = .wren) ∧
    (StateInv (permissive (reading [bad])) ∧ ChipFits (permissive (reading [bad])) ∧ (reading [bad]).fsm = .cmd ∧
      (reading [bad]).req.op = .read ∧ (writing .cmd [bad]).fsm = .cmd ∧ (writing .cmd [bad]).req.op ≠ .read) ∧
    (StateInv (permissive (readingAddr [bad])) ∧ ChipFits (permissive (readingAddr [bad])) ∧
      (readingAddr [bad]).fsm = .addr ∧ (readingAddr [bad]).geom.aw = 2) ∧
    (StateInv (permissive (erasing3 [bad])) ∧ ChipFits (permissive (erasing3 [bad])) ∧ (erasing3 [bad]).fsm = .addr ∧
      (erasing3 [bad]).geom.aw = 3) ∧
    ((reading [bad]).fsm ≠ .abort ∧ ∃ t, exec .phCmd (permissive (reading [bad])) = .next t) ∧
    (∃ t, exec (.phDataRx 16) (permissive (readingData [bad])) = .next (permissive t)) ∧
    ∃ t, exec (.phDataTx 16) (permissive (writingData [ok])) = .next (permissive t) :=
  ⟨⟨sound_wren, by decide, rfl, rfl, rfl⟩, ⟨sound_cmd, by decide, rfl, rfl, rfl, by decide⟩, ⟨sound_addr2, by decide, rfl, rfl⟩,
    ⟨sound_addr3, by decide, rfl, rfl⟩, ⟨by decide, _, rfl⟩, gives_permissive (by decide),
    gives_permissive (by decide)⟩

theorem witness_SilentBusLeavesTheBlockWaiting :
    StateInv (reading [.silent]) ∧ ChipFits (reading [.silent]) ∧ (reading [.silent]).fsm ≠ .idle ∧
    (reading [.silent]).agenda = [] ∧ (reading [.silent]).busAnswers = .silent :: [] :=
  ⟨sound_cmd, by decide, by decide, rfl, rfl⟩

/-- One phase of each framing: None, Begin, End, BeginEnd. -/
theorem witness_ChipSelectFollowsTheFraming :
    (Instr.phAddr2.port = .phase ∧ (readingAddr [bad]).busAnswers = bad :: [] ∧
      (∃ t, exec .phAddr2 (readingAddr [bad]) = .next t) ∧ encode .phAddr2 % 4 = 0) ∧
    ((∃ t, exec .phCmd (reading [bad]) = .next t) ∧ encode .phCmd % 4 = 1) ∧
    ((∃ t, exec (.phDataRx 16) (readingData [bad]) = .next t) ∧ encode (.phDataRx 16) % 4 = 2) ∧
    ((∃ t, exec .phWren (writing .wren [bad]) = .next t) ∧ encode .phWren % 4 = 3) :=
  ⟨⟨rfl, rfl, ⟨_, rfl⟩, by decide⟩, ⟨⟨_, rfl⟩, by decide⟩, ⟨⟨_, rfl⟩, by decide⟩, ⟨⟨_, rfl⟩, by decide⟩⟩

theorem witness_ContinuedTransactionLeavesAnyArray :
    (StateInv (readingOn [ok]) ∧ (readingOn [ok]).fsm = .data ∧
      (readingOn [ok]).chip = some (during false [0x03, 0, 0x20] .continued) ∧
      (during false [0x03, 0, 0x20] .continued).health ≠ .clean ∧ (readingOn [ok]).busAnswers = ok :: [] ∧
      (readingOn [ok]).req.op = .read) ∧
    (StateInv (writingOn [bad]) ∧ (writingOn [bad]).fsm = .data ∧
      (writingOn [bad]).chip = some (during true [0x02, 0, 0x20] .failed) ∧
      (during true [0x02, 0, 0x20] .failed).health ≠ .clean ∧ (writingOn [bad]).busAnswers = bad :: [] ∧
      (writingOn [bad]).req.op ≠ .read) :=
  ⟨⟨sound_reading_on, rfl, rfl, by decide, rfl, rfl⟩, ⟨sound_writing_on, rfl, rfl, by decide, rfl, by decide⟩⟩

/-- The last byte of the array is clocked out; nothing is clocked out at its end. -/
theorem witness_ChipReadDrivesTheArray :
    ({ during true [0x03, 0x7F, 0xFF] .clean with clocked := 1 } : Chip).txnOpen = true ∧
    (during true [0x03, 0x7F, 0xFF] .clean).health = .clean ∧
    (during true [0x03, 0x7F, 0xFF] .clean).txn = 0x03 :: ([0x7F, 0xFF] ++ []) ∧
    [(0x7F : Byte), 0xFF].length = ((during true [0x03, 0x7F, 0xFF] .clean).geom.getD bound.geom).aw.toNat ∧
    beNat [0x7F, 0xFF] + ({ during true [0x03, 0x7F, 0xFF] .clean with clocked := 1 } : Chip).clocked ≤ 0x8000 ∧
    (during true [0x03, 0x80, 0x00] .clean).clocked = 0 := by
  refine ⟨rfl, rfl, rfl, rfl, by decide, rfl⟩

/-- An address of one byte, of two. -/
theorem witness_ChipReadBeforeTheAddress :
    (during true [0x03, 0x7F] .clean).txnOpen = true ∧ (during true [0x03, 0x7F] .clean).health = .clean ∧
    (during true [0x03, 0x7F] .clean).txn = 0x03 :: [0x7F] ∧
    [(0x7F : Byte)].length < ((during true [0x03, 0x7F] .clean).geom.getD bound.geom).aw.toNat := by
  refine ⟨rfl, rfl, rfl, by decide⟩

/-- One byte at the last address, and no byte at the end of the array; the latch set and clear; an address of one byte, of two. -/
theorem witness_ChipWriteStoresUnderTheLatch :
    ((during true [0x02, 0x7F, 0xFF, 0xAA] .clean).txnOpen = true ∧
      (during true [0x02, 0x7F, 0xFF, 0xAA] .clean).health = .clean ∧
      (during true [0x02, 0x7F, 0xFF, 0xAA] .clean).txn = 0x02 :: ([0x7F, 0xFF] ++ [0xAA]) ∧
      [(0x7F : Byte), 0xFF].length = ((during true [0x02, 0x7F, 0xFF, 0xAA] .clean).geom.getD bound.geom).aw.toNat ∧
      beNat [0x7F, 0xFF] + [(0xAA : Byte)].length ≤
        ((during true [0x02, 0x7F, 0xFF, 0xAA] .clean).geom.getD bound.geom).size.toNat ∧
      (during true [0x02, 0x7F, 0xFF, 0xAA] .clean).wel = true) ∧
    ((during false [0x02, 0x80, 0x00] .clean).txn = 0x02 :: ([0x80, 0x00] ++ []) ∧
      (during false [0x02, 0x80, 0x00] .clean).wel = false) ∧
    ((during true [0x02, 0x7F] .clean).txnOpen = true ∧ (during true [0x02, 0x7F] .clean).health = .clean ∧
      (during true [0x02, 0x7F] .clean).txn = 0x02 :: [0x7F] ∧
      [(0x7F : Byte)].length < ((during true [0x02, 0x7F] .clean).geom.getD bound.geom).aw.toNat) := by
  refine ⟨⟨rfl, rfl, rfl, rfl, by decide, rfl⟩, ⟨rfl, rfl⟩, ⟨rfl, rfl, rfl, by decide⟩⟩

theorem witness_ChipWriteEnableSetsTheLatch :
    ({ bound with chip := some (during false [0x06] .clean) } : State).chip = some (during false [0x06] .clean) ∧
    (during false [0x06] .clean).txnOpen = true ∧ (during false [0x06] .clean).health = .clean ∧
    (during false [0x06] .clean).txn = [0x06] ∧ (during false [0x06] .clean).clocked = 0 := ⟨rfl, rfl, rfl, rfl, rfl⟩

/-- An unknown byte; WRITE_ENABLE of two bytes sent, and with one clocked out; a WRITE and a READ of two bytes at the last address. -/
theorem witness_ChipFaultsOnMeaninglessTransactions :
    (bound.fsm = .idle ∧ bound.chip = some (chip [(0x20, 0x77), (0x21, 0x88)] false) ∧
      (next' [.wire [0x05] 0] bound).agenda = .wire (0x05 :: []) 0 :: [] ∧ (0x05 : Byte) ≠ 0x02 ∧ (0x05 : Byte) ≠ 0x03 ∧
      (0x05 : Byte) ≠ 0x06) ∧
    ((next' [.wire [0x06, 0x06] 0] bound).agenda = .wire (0x06 :: [0x06]) 0 :: [] ∧ [(0x06 : Byte)] ≠ []) ∧
    ((next' [.wire [0x06] 1] bound).agenda = .wire (0x06 :: []) 1 :: [] ∧ 0 < 1) ∧
    ((next' [.wire [0x02, 0x7F, 0xFF, 1, 2] 0] bound).agenda = .wire (0x02 :: ([0x7F, 0xFF] ++ [1, 2])) 0 :: [] ∧
      [(0x7F : Byte), 0xFF].length = ((chip [] false).geom.getD bound.geom).aw.toNat ∧ [(1 : Byte), 2] ≠ [] ∧
      ((chip [] false).geom.getD bound.geom).size.toNat < beNat [0x7F, 0xFF] + [(1 : Byte), 2].length) ∧
    ((next' [.wire [0x03, 0x7F, 0xFF] 2] bound).agenda = .wire (0x03 :: ([0x7F, 0xFF] ++ [])) 2 :: [] ∧
      ((chip [] false).geom.getD bound.geom).size.toNat < beNat [0x7F, 0xFF] + 2) := by
  refine ⟨⟨rfl, rfl, rfl, by decide, by decide, by decide⟩, ⟨rfl, by decide⟩, ⟨rfl, by decide⟩, ⟨rfl, rfl, by decide, by decide⟩,
    ⟨rfl, by decide⟩⟩

theorem witness_EveryStepKeepsTheInvariant :
    (StateInv bound ∧ ∃ t, step (next' [.request 0x000000020000002000 none] bound) = .next t) ∧
    (StateInv (writingData [bad]) ∧ ∃ t, step (writingData [bad]) = .next t) :=
  ⟨⟨sound_bound, _, rfl⟩, ⟨sound_data_write, _, rfl⟩⟩

/-- A response register read before a completion, and the transaction [05]. -/
theorem witness_SoundStatesDoNotFault :
    (StateInv (next' [.readReg .retlen] bound) ∧ step (next' [.readReg .retlen] bound) = .fault .responseNotValid) ∧
    (StateInv (next' [.wire [0x05] 0] bound) ∧ step (next' [.wire [0x05] 0] bound) = .fault .unknownChipCommand) :=
  ⟨⟨sound_bound, rfl⟩, ⟨sound_bound, rfl⟩⟩

theorem witness_OnlyBindAndUnbindWriteTheGeometry :
    (gives (exec (.bind .mr25h40) { bound with claimAnswers := [.ok], registryAnswers := [.ok, .ok] }) (fun t =>
      t.geom != bound.geom && t.bound)) = true ∧
    (gives (exec .unbind { bound with registryAnswers := [.ok] }) (fun t => t.bound != bound.bound)) = true := by decide

/-- A request that comes back to IDLE; a completion OK of each kind; a completion whose response is the one before it; a failing
completion; a chip command. -/
theorem witness_CompletionIsTheOnlyWayToIdle :
    gives (exec (.phDataTx 16) (writingData [ok])) (fun t =>
      t.fsm == .idle && t.resp.valid && t.resp.status == 0) = true ∧
    gives (exec (.sync 1 2) bound) (fun t => t.fsm == .idle && t.resp.valid && t.resp.status == 0) = true ∧
    gives (exec .unbind { State.reset with resp := ⟨true, 0, 0, []⟩ }) (fun t =>
      t.fsm == .idle && t.resp == ⟨true, 0, 0, []⟩) = true ∧
    gives (exec .phRelease (aborting [ok])) (fun t => t.fsm == .idle && t.resp.status != 0) = true ∧
    gives (exec .cmdWren { bound with chip := some (during false [0x06] .clean) }) (fun t => t.resp == bound.resp) = true ∧
    Instr.port .cmdWren = .command := by decide

theorem witness_StepsKeepPolicyAndRecords : ∃ t, step (writing .wren [ok]) = .next t := ⟨_, rfl⟩

theorem witness_InstancesDoNotInterfere : (∃ sys, stepInstance 1 [bound, writing .wren [ok], bound] = .next sys) ∧ 2 ≠ 1 :=
  ⟨⟨_, rfl⟩, by decide⟩

/-- The answers OK are OK answers. -/
theorem answersOk_replicate (n : Nat) (s : State) : AnswersOk n { s with busAnswers := List.replicate n ok } := by
  refine ⟨by simp, fun a ha => ⟨[], ?_⟩⟩
  exact List.eq_of_mem_replicate (List.mem_of_mem_take ha)

/-- The bound block, presented these requests, every phase answered OK. -/
def session (n : Nat) (a : List EnvAction) : State := { next' a bound with busAnswers := List.replicate n ok }

/-- `READ 0x7FFF, 1` on mr25h256. -/
theorem witness_ReadRunsThreePhases :
    let s := session 3 [.request (BitVec.ofNat 72 (encode (.read 0x7FFF 1))) none]
    StateInv s ∧ ChipFits s ∧ s.fsm = .idle ∧ s.bound = true ∧ s.chip = some (chip [(0x20, 0x77), (0x21, 0x88)] false) ∧
      (0x7FFF : Word32).toNat + (1 : Word32).toNat ≤ s.geom.size.toNat ∧
      s.agenda = [.request (BitVec.ofNat 72 (encode (.read 0x7FFF 1))) none] ∧ AnswersOk 3 s :=
  ⟨sound_bound, by decide, rfl, rfl, rfl, by decide, rfl, answersOk_replicate 3 _⟩

/-- `WRITE 0x7FFF, 1, [AB]` on mr25h256. -/
theorem witness_WriteRunsFourPhases :
    let s := session 4 [.request (BitVec.ofNat 72 (encode (.write 0x7FFF 1))) (some [0xAB])]
    StateInv s ∧ ChipFits s ∧ s.fsm = .idle ∧ s.bound = true ∧ s.chip = some (chip [(0x20, 0x77), (0x21, 0x88)] false) ∧
      [(0xAB : Byte)].length = (1 : Word32).toNat ∧ (0x7FFF : Word32).toNat + (1 : Word32).toNat ≤ s.geom.size.toNat ∧
      s.agenda = [.request (BitVec.ofNat 72 (encode (.write 0x7FFF 1))) (some [0xAB])] ∧ AnswersOk 4 s :=
  ⟨sound_bound, by decide, rfl, rfl, rfl, rfl, by decide, rfl, answersOk_replicate 4 _⟩

theorem witness_ReadReturnsWhatWasWritten :
    let a : List EnvAction := [.request (BitVec.ofNat 72 (encode (.write 0x7FFF 1))) (some [0xAB]),
      .request (BitVec.ofNat 72 (encode (.read 0x7FFF 1))) none]
    let s := session 7 a
    StateInv s ∧ ChipFits s ∧ s.fsm = .idle ∧ s.bound = true ∧ s.chip = some (chip [(0x20, 0x77), (0x21, 0x88)] false) ∧
      [(0xAB : Byte)].length = (1 : Word32).toNat ∧ (0x7FFF : Word32).toNat + (1 : Word32).toNat ≤ s.geom.size.toNat ∧
      s.agenda = a ∧ AnswersOk 7 s :=
  ⟨sound_bound, by decide, rfl, rfl, rfl, rfl, by decide, rfl, answersOk_replicate 7 _⟩

theorem witness_ReadAfterEraseReturnsZeros :
    let a : List EnvAction := [.request (BitVec.ofNat 72 (encode (.erase 0x20 2))) none,
      .request (BitVec.ofNat 72 (encode (.read 0x20 2))) none]
    let s := session 7 a
    StateInv s ∧ ChipFits s ∧ s.fsm = .idle ∧ s.bound = true ∧ s.chip = some (chip [(0x20, 0x77), (0x21, 0x88)] false) ∧
      (0x20 : Word32).toNat + (2 : Word32).toNat ≤ s.geom.size.toNat ∧ s.agenda = a ∧ AnswersOk 7 s :=
  ⟨sound_bound, by decide, rfl, rfl, rfl, by decide, rfl, answersOk_replicate 7 _⟩

theorem witness_PhaseCounts :
    (StateInv (reading [bad, ok, ok, ok]) ∧ ChipFits (reading [bad, ok, ok, ok]) ∧ (reading [bad, ok, ok, ok]).agenda = [] ∧
      (reading [bad, ok, ok, ok]).busAnswers = bad :: ok :: ok :: ok :: [] ∧ (reading [bad, ok, ok, ok]).fsm = .cmd ∧
      (reading [bad, ok, ok, ok]).req.op = .read) ∧
    (StateInv (writing .wren [ok, bad, ok, ok]) ∧ ChipFits (writing .wren [ok, bad, ok, ok]) ∧
      (writing .wren [ok, bad, ok, ok]).agenda = [] ∧
      (writing .wren [ok, bad, ok, ok]).busAnswers = ok :: bad :: ok :: ok :: [] ∧
      (writing .wren [ok, bad, ok, ok]).fsm = .wren) :=
  ⟨⟨sound_cmd, by decide, rfl, rfl, rfl, rfl⟩, ⟨sound_wren, by decide, rfl, rfl, rfl⟩⟩

/-- Four answers, with silence before the second and the third. -/
theorem witness_EveryRequestEnds :
    StateInv (writing .wren [ok, .silent, bad, .silent, .silent, ok, ok]) ∧
    ChipFits (writing .wren [ok, .silent, bad, .silent, .silent, ok, ok]) ∧
    (writing .wren [ok, .silent, bad, .silent, .silent, ok, ok]).agenda = [] ∧
    (writing .wren [ok, .silent, bad, .silent, .silent, ok, ok]).fsm ≠ .idle ∧
    Answers 4 (writing .wren [ok, .silent, bad, .silent, .silent, ok, ok]) :=
  ⟨sound_wren, by decide, rfl, by decide, by unfold Answers; decide⟩

end Sys2Proof.Tests
end

section
/-!
No step changes the policy, and the trace and the collaborator events only grow (R8, R10, R111). First the inversion of `fetch`: in
which state it hands an instruction to `exec`, and which next states it gives without one. Then a step is one or the other.
-/

namespace Sys2Proof.Machine

/-! ### What `fetch` can give -/

/-- The block's own move runs its phase in the state as it is. -/
theorem fetchPhase_run {s s' : State} {i : Instr} (h : fetchPhase s = .run i s') : s' = s := by
  rcases fetchPhase_cases s with ⟨_, he⟩ | ⟨_, he⟩ | ⟨_, _, _, _, _, he⟩ <;> rw [he] at h <;> cases h
  rfl

/-- Without an instruction, the block's own move gives a next state only by doing nothing. -/
theorem fetchPhase_done_next {s t : State} (h : fetchPhase s = .done (.next t)) : t = s := by
  rcases fetchPhase_cases s with ⟨_, he⟩ | ⟨_, he⟩ | ⟨_, _, _, _, _, he⟩ <;> rw [he] at h <;> cases h
  rfl

/-- A transaction given to the chip is the command of its first byte, or a fault or a refusal. -/
theorem fetchWire_cases (bytes : List Byte) (clocked : Nat) (s : State) :
    (∃ i chip, fetchWire bytes clocked s = .run i { s with chip := chip }) ∨
    (∃ f, fetchWire bytes clocked s = .done (.fault f)) ∨ ∃ r, fetchWire bytes clocked s = .done (.refused r) := by
  unfold fetchWire
  split
  · exact .inr (.inr ⟨_, rfl⟩)
  · exact .inr (.inl ⟨_, rfl⟩)
  · split
    · exact .inl ⟨_, _, rfl⟩
    · exact .inr (.inl ⟨_, rfl⟩)

/-- A register read that gives a next state has only left the agenda (R41). -/
theorem readStep_next {r : Reg} {rest : List EnvAction} {s t : State} (h : readStep r rest s = .next t) :
    t = { s with agenda := rest } := by
  unfold readStep at h
  split at h <;> cases h
  rfl

/-- An instruction runs in the state before the step, but for the agenda, the write-data lines, and the transaction that a whole
chip transaction puts into the chip. -/
theorem fetch_run_frame {s s' : State} {i : Instr} (h : fetch s = .run i s') :
    ∃ chip wdata agenda, s' = { s with chip := chip, wdata := wdata, agenda := agenda } := by
  unfold fetch at h
  split at h
  -- nothing listed, or a pause
  case h_1 | h_2 => exact ⟨_, _, _, fetchPhase_run h⟩
  -- a reset, a power cycle or a register read
  case h_3 | h_4 | h_5 => cases h
  -- a request or a configuration operation
  case h_6 | h_7 =>
    split at h
    · exact ⟨_, _, _, fetchPhase_run h⟩
    · cases h; exact ⟨_, _, _, rfl⟩
  -- a whole transaction for the chip
  case h_8 bytes clocked rest _ =>
    split at h
    · exact ⟨_, _, _, fetchPhase_run h⟩
    · rcases fetchWire_cases bytes clocked { s with agenda := rest } with ⟨_, _, he⟩ | ⟨_, he⟩ | ⟨_, he⟩ <;>
        rw [he] at h <;> cases h
      exact ⟨_, _, _, rfl⟩

/-- Without an instruction, a step takes an action off the agenda, or resets the block, or loses power and gets it back. -/
theorem fetch_done_next {s t : State} (h : fetch s = .done (.next t)) :
    ∃ agenda, t = { s with agenda := agenda } ∨ t = resetBlock { s with agenda := agenda } ∨
      t = cyclePower { s with agenda := agenda } := by
  unfold fetch at h
  split at h
  -- nothing listed, or a pause
  case h_1 | h_2 => exact ⟨_, .inl (fetchPhase_done_next h)⟩
  -- a reset, a power cycle, a register read
  case h_3 => cases h; exact ⟨_, .inr (.inl rfl)⟩
  case h_4 => cases h; exact ⟨_, .inr (.inr rfl)⟩
  case h_5 => exact ⟨_, .inl (readStep_next (Fetched.done.inj h))⟩
  -- a request or a configuration operation
  case h_6 | h_7 =>
    split at h
    · exact ⟨_, .inl (fetchPhase_done_next h)⟩
    · cases h
  -- a whole transaction for the chip
  case h_8 bytes clocked rest _ =>
    split at h
    · exact ⟨_, .inl (fetchPhase_done_next h)⟩
    · rcases fetchWire_cases bytes clocked { s with agenda := rest } with ⟨_, _, he⟩ | ⟨_, he⟩ | ⟨_, he⟩ <;>
        rw [he] at h <;> cases h

/-- A step that gives a next state ran an instruction, or `fetch` gave that state without one. -/
theorem step_next {s t : State} (h : step s = .next t) :
    (∃ i s', fetch s = .run i s' ∧ exec i s' = .next t) ∨ fetch s = .done (.next t) := by
  cases hf : fetch s with
  | run i s' => exact .inl ⟨i, s', rfl, step_run hf ▸ h⟩
  | done o => exact .inr (congrArg Fetched.done (step_done hf ▸ h))

/-! ### Policy and records -/

/-- From `s` to `t` the policy is unchanged, the trace grows by at most one phase, and the events only grow. -/
def KeepsPolicyAndRecords (s t : State) : Prop :=
  t.policy = s.policy ∧ (∃ more, t.trace = s.trace ++ more ∧ more.length ≤ 1) ∧ ∃ more, t.events = s.events ++ more

theorem keepsPolicyAndRecords_of_eq {s t : State} (hp : t.policy = s.policy) (ht : t.trace = s.trace)
    (he : t.events = s.events) : KeepsPolicyAndRecords s t :=
  ⟨hp, ⟨[], by simp [ht]⟩, [], by simp [he]⟩

theorem exec_keepsPolicyAndRecords {i : Instr} {s t : State} (h : exec i s = .next t) : KeepsPolicyAndRecords s t := by
  by_cases hp : i.port = .phase
  · obtain ⟨hpol, _, hev, _, _, _, _, _, htr⟩ := exec_phase_frame hp h
    exact ⟨hpol, htr, [], by simp [hev]⟩
  · rcases exec_other hp h with ⟨_, _, hpol, htr, hev, _⟩ | ⟨_, rfl⟩
    · exact ⟨hpol, ⟨[], by simp [htr]⟩, hev⟩
    · exact keepsPolicyAndRecords_of_eq rfl rfl rfl

theorem step_keepsPolicyAndRecords {s t : State} (h : step s = .next t) : KeepsPolicyAndRecords s t := by
  rcases step_next h with ⟨i, s', hf, he⟩ | hf
  · obtain ⟨_, _, _, rfl⟩ := fetch_run_frame hf
    have hkeeps := exec_keepsPolicyAndRecords he
    exact hkeeps
  · obtain ⟨_, rfl | rfl | rfl⟩ := fetch_done_next hf
    all_goals exact keepsPolicyAndRecords_of_eq rfl rfl rfl

/-- Settles O53: an instruction keeps them by its port (a phase instruction adds at most its one phase), and a step without an
instruction, a reset and a power cycle included, writes none of them. -/
theorem stepsKeepPolicyAndRecords : Obligations.StepsKeepPolicyAndRecords := fun _ _ => step_keepsPolicyAndRecords

end Sys2Proof.Machine
end

section
/-!
A phase descriptor can be read off its word (R76), so a word on the phase port says which phase the block issues.
-/

namespace Sys2Proof

theorem Framing.code_lt (f : Framing) : f.code < 4 := by cases f <;> decide

theorem Direction.code_lt (d : Direction) : d.code < 4 := by cases d <;> decide

@[simp] theorem Framing.ofCode_code (f : Framing) : Framing.ofCode f.code = f := by cases f <;> rfl

@[simp] theorem Direction.ofCode_code (d : Direction) : Direction.ofCode d.code = d := by cases d <;> rfl

/-- A phase descriptor's word has its fields (R76). -/
@[simp] theorem PhaseDesc.ofWord_word (d : PhaseDesc) : PhaseDesc.ofWord d.word = d := by
  obtain ⟨f, r, n⟩ := d
  have hf := f.code_lt
  have hr := r.code_lt
  simp only [PhaseDesc.ofWord, PhaseDesc.word]
  rw [show (f.code + 4 * r.code + 256 * n) % 4 = f.code by omega,
    show (f.code + 4 * r.code + 256 * n) / 4 % 4 = r.code by omega,
    show (f.code + 4 * r.code + 256 * n) / 256 = n by omega, Framing.ofCode_code, Direction.ofCode_code]

theorem PhaseDesc.word_injective {d d' : PhaseDesc} (h : d.word = d'.word) : d = d' := by
  rw [← d.ofWord_word, h, d'.ofWord_word]

end Sys2Proof
end

section
/-!
Every step keeps the invariant (R47, R51, R119, R131, R132). An idle state has it when the wire and the chip are idle too and the
geometry follows BOUND, so each operation that ends in IDLE comes down to its frame. What is left are the accepted transfer, which
starts the first phase, and the block's phases, where the rows of R87 say which phase a state issues and the chip's part of it
follows from the framing.
-/

namespace Sys2Proof.Machine

/-! ### The invariant of an idle state -/

/-- The chip's array is canonical, and no transaction is open. -/
abbrev ChipIdle (c : Chip) : Prop := Memory.wf c.array ∧ c.txnOpen = false

/-- What the invariant asks of a state that has no request in progress. -/
theorem stateInv_of_idle {s : State} (hf : s.fsm = .idle) (hcs : s.csActive = false) (ho : s.outstanding = false)
    (hg : GeometryInv s) (hc : ∀ c ∈ s.chip, ChipIdle c) : StateInv s := by
  refine ⟨by simp [SelectInv, hf, hcs, ho], hg, fun hb => absurd hf hb, fun c h => ?_⟩
  obtain ⟨hw, hopen⟩ := hc c h
  simp [ChipOk, hf, hcs, hw, hopen]

theorem StateInv.csActive_of_idle {s : State} (hs : StateInv s) (hf : s.fsm = .idle) : s.csActive = false :=
  let ⟨⟨_, _, hidle, _, _, _⟩, _⟩ := hs
  hidle hf

theorem StateInv.outstanding_of_idle {s : State} (hs : StateInv s) (hf : s.fsm = .idle) : s.outstanding = false := by
  obtain ⟨⟨_, _, _, _, _, hout⟩, _⟩ := hs
  exact Bool.eq_false_iff.2 fun ho => hout ho hf

theorem StateInv.geometryInv {s : State} (hs : StateInv s) : GeometryInv s :=
  let ⟨_, hg, _, _⟩ := hs
  hg

theorem StateInv.chip_wf {s : State} (hs : StateInv s) : ∀ c ∈ s.chip, Memory.wf c.array := fun c hc =>
  let ⟨_, _, _, hchip⟩ := hs
  let ⟨hw, _⟩ := hchip c hc
  hw

theorem StateInv.chipIdle_of_idle {s : State} (hs : StateInv s) (hf : s.fsm = .idle) : ∀ c ∈ s.chip, ChipIdle c := by
  intro c hc
  obtain ⟨_, _, _, hchip⟩ := id hs
  obtain ⟨hw, hopen, _⟩ := hchip c hc
  exact ⟨hw, hopen.trans (hs.csActive_of_idle hf)⟩

/-- Before the first phase of a transaction nothing is selected either (R132): what is left is the latched request. -/
theorem stateInv_of_unselected {s : State} (hf : s.fsm = .wren ∨ s.fsm = .cmd) (hcs : s.csActive = false)
    (hg : GeometryInv s) (hr : RequestInv s) (hc : ∀ c ∈ s.chip, ChipIdle c) : StateInv s := by
  refine ⟨by rcases hf with hf | hf <;> simp [SelectInv, hf, hcs], hg, hr, fun c h => ?_⟩
  obtain ⟨hw, hopen⟩ := hc c h
  rcases hf with hf | hf <;> simp [ChipOk, hf, hcs, hw, hopen]

/-- Inside a transaction chip-select is asserted (R47). -/
theorem stateInv_of_selected {s : State} (hf : s.fsm = .addr ∨ s.fsm = .data ∨ s.fsm = .abort) (hcs : s.csActive = true)
    (hg : GeometryInv s) (hr : RequestInv s) (hc : ∀ c ∈ s.chip, ChipOk s c) : StateInv s :=
  ⟨by rcases hf with hf | hf | hf <;> simp [SelectInv, hf, hcs], hg, hr, hc⟩

/-- From one idle state to another that has the same wire and chip only the geometry is to be looked at. -/
theorem stateInv_of_idle_frame {s t : State} (hs : StateInv s) (hf : s.fsm = .idle) (hf' : t.fsm = .idle)
    (hcs : t.csActive = s.csActive) (ho : t.outstanding = s.outstanding) (hc : t.chip = s.chip) (hg : GeometryInv t) :
    StateInv t :=
  stateInv_of_idle hf' (hcs.trans (hs.csActive_of_idle hf)) (ho.trans (hs.outstanding_of_idle hf)) hg
    (hc ▸ hs.chipIdle_of_idle hf)

/-! ### Requests -/

/-- REQ_DATA of a request that the port takes has the length that R31 gives it. -/
theorem reqData_length {op : ReqOp} {o l : Word32} {s : State} (hp : portRefusal op l s = none) :
    (reqData op l s.wdata).length = dataCount ⟨op, o, l, reqData op l s.wdata⟩ := by
  obtain ⟨_, hw⟩ := (portRefusal_none_iff op l s).1 hp
  cases op
  case write =>
    obtain ⟨d, hd, hl⟩ := hw
    simp [reqData, dataCount, hd, hl]
  all_goals simp [reqData, dataCount]

/-- A geometry whose width the encoder takes is a bound one: while unbound GEOM_AW is 0 (R47, R102). -/
theorem bound_of_encodeAddr_ok {s : State} {o : Word32} {bytes : List Byte} {bits : BitVec 6} (hg : GeometryInv s)
    (he : encodeAddr o s.geom.aw = .ok (bytes, bits)) : s.bound = true := by
  by_contra hb
  have haw : s.geom.aw = 0 := by rw [hg.2 (by simpa using hb)]
  rcases encodeAddr_ok he with ⟨h, _⟩ | ⟨h, _⟩ <;> simp [haw] at h

/-- An accepted READ, WRITE or ERASE, refused by validation or started (R131, R132). -/
theorem startTransfer_keepsStateInv {op : ReqOp} {o l : Word32} {s : State} (hs : StateInv s) (hop : op ≠ .sync)
    (hp : portRefusal op l s = none) : StateInv (startTransfer (acceptRequest op o l s)) := by
  obtain ⟨hf, _⟩ := (portRefusal_none_iff op l s).1 hp
  rcases startTransfer_cases (acceptRequest op o l s) with ⟨_, _, h⟩ | ⟨_, _, _, _, h⟩ | ⟨bytes, bits, he, hb, h⟩ <;> rw [h]
  -- the width is not supported, or the request is out of bounds
  · exact stateInv_of_idle_frame hs hf rfl rfl rfl rfl hs.geometryInv
  · exact stateInv_of_idle_frame hs hf rfl rfl rfl rfl hs.geometryInv
  -- the first phase is set
  · have hfirst : firstPhase op = .cmd ∨ firstPhase op = .wren ∧ op ≠ .read := by cases op <;> simp_all [firstPhase]
    have hmatch : latchMatches { acceptRequest op o l s with addr := latchOf bytes bits, fsm := firstPhase op } = true := by
      simp only [acceptRequest_req, acceptRequest_geom] at he
      simp [latchMatches, he]
    have hbound : s.bound = true := bound_of_encodeAddr_ok hs.geometryInv he
    have hreq : RequestInv { acceptRequest op o l s with addr := latchOf bytes bits, fsm := firstPhase op } := by
      refine fun _ => ⟨hbound, hop, fun hw => ?_, hmatch, (inBounds_iff _ _ _).1 hb, reqData_length hp⟩
      rcases hfirst with h | ⟨_, h⟩
      · exact absurd (h.symm.trans hw) (by decide)
      · exact h
    exact stateInv_of_unselected (hfirst.symm.imp_left And.left) (hs.csActive_of_idle hf) hs.geometryInv hreq
      (hs.chipIdle_of_idle hf)

theorem exec_request_keepsStateInv {i : Instr} {s t : State} (hs : StateInv s) (hp : i.port = .request)
    (he : exec i s = .next t) : StateInv t := by
  cases i <;> try (cases hp; done)
  case read o l | write o l | erase o l | zfill o l =>
    simp only [exec, execRead, execWrite, execErase, execZfill] at he
    split at he
    · cases he
    next hr => cases he; exact startTransfer_keepsStateInv hs (by decide) hr
  case sync o l | invalidRequest op r o l =>
    simp only [exec, execSync, execInvalidRequest] at he
    split at he
    · cases he
    next hr =>
      cases he
      obtain ⟨hf, _⟩ := (portRefusal_none_iff _ _ _).1 hr
      exact stateInv_of_idle_frame hs hf rfl rfl rfl rfl hs.geometryInv

/-! ### Configuration operations -/

theorem isVariant_variantGeometry (v : Variant) : isVariant (variantGeometry v) := by cases v <;> simp [isVariant]

theorem geometryInv_of_unbound {s : State} (hb : s.bound = false) (hg : s.geom = ⟨0, 0⟩) : GeometryInv s :=
  ⟨by simp [hb], fun _ => hg⟩

/-- What BIND of a bound device releases first (R173) is the device alone; the wire and the chip are as they were. -/
theorem unbindFirst_frame {s : State} (hg : GeometryInv s) :
    GeometryInv (unbindFirst s) ∧ (unbindFirst s).csActive = s.csActive ∧ (unbindFirst s).outstanding = s.outstanding ∧
      (unbindFirst s).chip = s.chip := by
  unfold unbindFirst
  split
  · exact ⟨geometryInv_of_unbound rfl rfl, rfl, rfl, rfl⟩
  · exact ⟨hg, rfl, rfl, rfl⟩

theorem claimAndRegister_frame {v : Variant} {s : State} (hg : GeometryInv s) :
    (claimAndRegister v s).fsm = .idle ∧ GeometryInv (claimAndRegister v s) ∧
      (claimAndRegister v s).csActive = s.csActive ∧ (claimAndRegister v s).outstanding = s.outstanding ∧
      (claimAndRegister v s).chip = s.chip := by
  rcases claimAndRegister_cases v s with h | h | h <;> rw [h]
  -- the claim failed, the registry failed, the device is bound
  · exact ⟨rfl, hg, rfl, rfl, rfl⟩
  · exact ⟨rfl, geometryInv_of_unbound rfl rfl, rfl, rfl, rfl⟩
  · exact ⟨rfl, ⟨fun _ => isVariant_variantGeometry v, by simp⟩, rfl, rfl, rfl⟩

theorem unbindBound_frame (s : State) :
    (unbindBound s).fsm = .idle ∧ GeometryInv (unbindBound s) ∧ (unbindBound s).csActive = s.csActive ∧
      (unbindBound s).outstanding = s.outstanding ∧ (unbindBound s).chip = s.chip := by
  unfold unbindBound
  split <;> exact ⟨rfl, geometryInv_of_unbound rfl rfl, rfl, rfl, rfl⟩

theorem exec_config_keepsStateInv {i : Instr} {s t : State} (hs : StateInv s) (hp : i.port = .config)
    (he : exec i s = .next t) : StateInv t := by
  by_cases hf : s.fsm = .idle
  case neg => cases i <;> simp [Instr.port, exec, execBind, execUnbind, execInvalidConfig, State.busy, hf] at hp he
  cases i <;> try (cases hp; done)
  case bind v =>
    simp only [exec, execBind, State.busy, hf, bne_self_eq_false, Bool.false_eq_true, if_false] at he
    cases he
    obtain ⟨hg₁, hcs₁, ho₁, hc₁⟩ := unbindFirst_frame (s := acceptConfig s) hs.geometryInv
    obtain ⟨hf₂, hg₂, hcs₂, ho₂, hc₂⟩ := claimAndRegister_frame (v := v) hg₁
    exact stateInv_of_idle_frame hs hf hf₂ (hcs₂.trans hcs₁) (ho₂.trans ho₁) (hc₂.trans hc₁) hg₂
  case unbind =>
    simp only [exec, execUnbind, State.busy, hf, bne_self_eq_false, Bool.false_eq_true, if_false] at he
    cases he
    split
    · obtain ⟨hf', hg, hcs, ho, hc⟩ := unbindBound_frame (acceptConfig s)
      exact stateInv_of_idle_frame hs hf hf' hcs ho hc hg
    · exact stateInv_of_idle_frame hs hf rfl rfl rfl rfl hs.geometryInv
  case invalidConfig op v r =>
    simp only [exec, execInvalidConfig, State.busy, hf, bne_self_eq_false, Bool.false_eq_true, if_false] at he
    cases he
    exact stateInv_of_idle_frame hs hf rfl rfl rfl rfl hs.geometryInv

/-! ### Chip commands -/

/-- A chip command that gives a next state is the chip's own action on its open transaction (R192). -/
theorem exec_command_next {i : Instr} {s t : State} (hp : i.port = .command) (he : exec i s = .next t) :
    ∃ c c', s.chip = some c ∧ chipAct (chipGeometry s c) s.draws c = .ok c' ∧
      t = { s with chip := some c', draws := s.draws + 1 } := by
  cases i <;> try (cases hp; done)
  case cmdRead | cmdWrite | cmdWren =>
    obtain ⟨c, c', rest, hc, htxn, _, _, hact, rfl⟩ := chipCommand_next he
    exact ⟨c, c', hc, by simpa [chipAct, htxn, readByte, writeByte, wrenByte] using hact, rfl⟩

/-- A chip command in an idle state closes the transaction it ends. -/
theorem exec_command_stateInv {i : Instr} {s t : State} (hp : i.port = .command) (he : exec i s = .next t)
    (hf : s.fsm = .idle) (hcs : s.csActive = false) (ho : s.outstanding = false) (hg : GeometryInv s)
    (hw : ∀ c ∈ s.chip, Memory.wf c.array) : StateInv t := by
  obtain ⟨c, c', hc, hact, rfl⟩ := exec_command_next hp he
  refine stateInv_of_idle hf hcs ho hg fun x hx => ?_
  obtain rfl : c' = x := by simpa using hx
  exact ⟨chipAct_wf (hw c hc) hact, (chipAct_closed hact).1⟩

/-! ### Which phase a state issues -/

/-- ADDR's descriptor goes by the width, and moves ADDR_BITS bits (R144). -/
theorem addrDesc_cases {s : State} {d : PhaseDesc} (h : phaseDesc.addrDesc s = some d) :
    s.geom.aw = 2 ∧ d = ⟨.csNone, .tx, 16⟩ ∨ s.geom.aw = 3 ∧ d = ⟨.csNone, .tx, 24⟩ := by
  unfold phaseDesc.addrDesc at h
  split at h
  next haw => cases h; exact .inl ⟨haw.1, rfl⟩
  · split at h
    next haw => cases h; exact .inr ⟨haw.1, rfl⟩
    · cases h

/-- The rows of R87: the states that put a phase on the phase port, and its descriptor. -/
theorem phaseDesc_cases {s : State} {d : PhaseDesc} (h : phaseDesc s = some d) :
    (s.fsm = .wren ∧ d = ⟨.csBeginEnd, .tx, 8⟩) ∨
    (s.fsm = .cmd ∧ d = ⟨.csBegin, .tx, 8⟩) ∨
    (s.fsm = .addr ∧ (s.geom.aw = 2 ∧ d = ⟨.csNone, .tx, 16⟩ ∨ s.geom.aw = 3 ∧ d = ⟨.csNone, .tx, 24⟩)) ∨
    (s.fsm = .data ∧ ∃ dir, dir ≠ .noData ∧ d = ⟨.csEnd, dir, 8 * s.req.length.toNat⟩) ∨
    (s.fsm = .abort ∧ d = ⟨.csEnd, .noData, 0⟩) := by
  unfold phaseDesc at h
  split at h
  -- WREN, and CMD
  case h_1 hf _ | h_2 hf _ | h_3 hf _ | h_4 hf _ | h_5 hf _ => cases h; simp [hf]
  -- ADDR
  case h_6 hf _ | h_7 hf _ | h_8 hf _ => exact .inr (.inr (.inl ⟨hf, addrDesc_cases h⟩))
  -- DATA, and the release
  case h_9 hf _ | h_10 hf _ | h_11 hf _ | h_12 hf => cases h; simp [hf]
  case h_13 => cases h

/-- The descriptor whose word is on the phase port is the one of the block's state. -/
theorem phaseDesc_of_phaseWord {s : State} {d : PhaseDesc} (h : phaseWord s = some d.word) : phaseDesc s = some d := by
  obtain ⟨d', hd', hw⟩ := Option.map_eq_some_iff.1 h
  rw [hd', PhaseDesc.word_injective hw]

/-- A phase instruction that gives a next state was issued by the block's state. -/
theorem exec_phase_next {i : Instr} {s t : State} (hp : i.port = .phase) (he : exec i s = .next t) :
    (s.fsm = .wren ∧ issue ⟨.csBeginEnd, .tx, 8⟩ [wrenByte] afterWren s = .next t) ∨
    (s.fsm = .cmd ∧ issue ⟨.csBegin, .tx, 8⟩ [commandByte s.req.op] afterCmd s = .next t) ∨
    (s.fsm = .addr ∧ ∃ n, issue ⟨.csNone, .tx, n⟩ (latchedBytes s) afterAddr s = .next t) ∨
    (s.fsm = .data ∨ s.fsm = .abort) ∧ ∃ dir n tx go, issue ⟨.csEnd, dir, n⟩ tx go s = .next t ∧
      (go = afterDataRx ∨ go = afterDataTx ∨ go = afterRelease) := by
  cases i <;> try (cases hp; done)
  case phWren =>
    obtain ⟨hw, hi⟩ := inTurn_next he
    exact .inl ⟨by simpa using phaseDesc_cases (phaseDesc_of_phaseWord hw), hi⟩
  case phCmd =>
    obtain ⟨hw, hi⟩ := inTurn_next he
    exact .inr (.inl ⟨by simpa using phaseDesc_cases (phaseDesc_of_phaseWord hw), hi⟩)
  case phAddr2 =>
    obtain ⟨hw, hi⟩ := inTurn_next he
    obtain ⟨hf, haw⟩ : s.fsm = .addr ∧ s.geom.aw = 2 := by simpa using phaseDesc_cases (phaseDesc_of_phaseWord hw)
    exact .inr (.inr (.inl ⟨hf, _, by simpa [latchedBytes, haw] using hi⟩))
  case phAddr3 =>
    obtain ⟨hw, hi⟩ := inTurn_next he
    obtain ⟨hf, haw⟩ : s.fsm = .addr ∧ s.geom.aw = 3 := by simpa using phaseDesc_cases (phaseDesc_of_phaseWord hw)
    exact .inr (.inr (.inl ⟨hf, _, by simpa [latchedBytes, haw] using hi⟩))
  case phDataRx n | phDataTx n =>
    obtain ⟨hw, hi⟩ := inTurn_next he
    obtain ⟨hf, _⟩ : s.fsm = .data ∧ n = 8 * s.req.length.toNat := by simpa using phaseDesc_cases (phaseDesc_of_phaseWord hw)
    exact .inr (.inr (.inr ⟨.inl hf, _, _, _, _, hi, by simp⟩))
  case phRelease =>
    obtain ⟨hw, hi⟩ := inTurn_next he
    have hf : s.fsm = .abort := by simpa using phaseDesc_cases (phaseDesc_of_phaseWord hw)
    exact .inr (.inr (.inr ⟨.inr hf, _, _, _, _, hi, by simp⟩))

/-! ### The chip's part of a phase -/

/-- Without a mismatch the chip goes by the bound geometry (R244). -/
theorem chipGeometry_of_not_mismatch {s : State} {c : Chip} (hm : chipMismatch s = false) (hc : s.chip = some c) :
    chipGeometry s c = s.geom := by
  simpa [chipMismatch, hc] using hm

/-- The chip after a phase that met no mismatch is the attached one, on the bound geometry, after its part of the phase. -/
theorem chipAfter_mem {d : PhaseDesc} {tx : List Byte} {res : PhaseResult} {s : State} {chip : Option Chip}
    (hm : chipMismatch s = false) (h : chipAfter d tx res s = .ok chip) :
    ∀ c' ∈ chip, ∃ c ∈ s.chip, chipPhase s.geom s.draws d tx res { c with geom := some s.geom } = .ok c' := by
  rcases chipAfter_ok h with ⟨_, rfl⟩ | ⟨c, c', hc, rfl, hp⟩
  · simp
  · rintro _ ⟨⟩
    exact ⟨c, hc, chipGeometry_of_not_mismatch hm hc ▸ hp⟩

@[simp] theorem TxnHealth.after_eq_clean_iff (h : TxnHealth) (res : PhaseResult) :
    h.after res = .clean ↔ h = .clean ∧ res = .ok := by
  cases h <;> cases res <;> simp [TxnHealth.after]

/-! ### Where the block goes from an answer (R142 to R147) -/

theorem afterWren_fsm (res : PhaseResult) (rx : List Byte) (s : State) :
    (afterWren res rx s).fsm = .cmd ∨ (afterWren res rx s).fsm = .idle := by
  unfold afterWren
  split
  · exact .inl rfl
  · exact .inr rfl

/-- Not going on, the block has met a bus error. -/
theorem goesOn_eq_false {res : PhaseResult} {s : State} (h : ¬ goesOn res s = true) : res = .busError := by
  cases res
  · simp [goesOn] at h
  · rfl

theorem afterCmd_fsm (res : PhaseResult) (rx : List Byte) (s : State) :
    (afterCmd res rx s).fsm = .addr ∨ (afterCmd res rx s).fsm = .abort ∧ res = .busError := by
  unfold afterCmd
  split
  · exact .inl rfl
  next h => exact .inr ⟨rfl, goesOn_eq_false h⟩

theorem afterAddr_fsm (res : PhaseResult) (rx : List Byte) (s : State) :
    (afterAddr res rx s).fsm = .data ∨ (afterAddr res rx s).fsm = .abort ∧ res = .busError := by
  unfold afterAddr
  split
  · exact .inl rfl
  next h => exact .inr ⟨rfl, goesOn_eq_false h⟩

theorem afterEnd_fsm {go : PhaseResult → List Byte → State → State}
    (hgo : go = afterDataRx ∨ go = afterDataTx ∨ go = afterRelease) (res : PhaseResult) (rx : List Byte) (s : State) :
    (go res rx s).fsm = .idle := by
  rcases hgo with rfl | rfl | rfl <;> cases res <;> rfl

/-! ### Phases keep the invariant -/

/-- While the bus engine is silent the block is busy as before (R123). -/
theorem waitForBus_keepsStateInv {s : State} (hs : StateInv s) (hf : s.fsm ≠ .idle) : StateInv (waitForBus s) := by
  obtain ⟨⟨h6, h7, hidle, hpre, hsel, _⟩, hg, hr, hc⟩ := hs
  exact ⟨⟨h6, h7, hidle, hpre, hsel, fun _ => hf⟩, hg, hr, hc⟩

/-- An issued phase keeps the invariant when going on from each answer to it does. -/
theorem issue_keepsStateInv {d : PhaseDesc} {tx : List Byte} {go : PhaseResult → List Byte → State → State} {s t : State}
    (hs : StateInv s) (hf : s.fsm ≠ .idle) (h : issue d tx go s = .next t)
    (hgo : ∀ res rx chip, chipMismatch s = false → chipAfter d tx res s = .ok chip →
      StateInv (go res rx (phaseDone d tx res rx chip s))) : StateInv t := by
  obtain ⟨_, hm, ⟨_, rfl⟩ | ⟨res, given, chip, _, hc, rfl⟩⟩ := issue_next h
  · exact waitForBus_keepsStateInv hs hf
  · exact hgo _ _ _ hm hc

/-- A phase leaves the latches of the request in progress alone. -/
theorem StateInv.requestInv_phaseDone {s : State} (hs : StateInv s) (hf : s.fsm ≠ .idle) {f : Fsm} (hne : f ≠ .wren)
    (d : PhaseDesc) (tx : List Byte) (res : PhaseResult) (rx : List Byte) (chip : Option Chip) :
    RequestInv (goto f (phaseDone d tx res rx chip s)) := by
  obtain ⟨_, _, hreq, _⟩ := hs
  obtain ⟨hbound, hop, _, hmatch, hin, hlen⟩ := hreq hf
  exact fun _ => ⟨hbound, hop, fun h => absurd h hne, hmatch, hin, hlen⟩

/-- Of what the block does with an answer the invariant sees only where it goes. -/
theorem stateInv_after {go : PhaseResult → List Byte → State → State} {res : PhaseResult} {rx : List Byte} {u : State}
    (hgo : go = afterWren ∨ go = afterCmd ∨ go = afterAddr ∨ go = afterDataRx ∨ go = afterDataTx ∨ go = afterRelease)
    (h : StateInv (goto (go res rx u).fsm u)) : StateInv (go res rx u) := by
  obtain ⟨f, r, e, ht⟩ := after_frame u res rx go hgo
  rw [ht] at h ⊢
  exact h

/-- WREN is a transaction of its own: the block stands before CMD, or has completed (R142). -/
theorem afterWren_keepsStateInv {s : State} {n : Nat} {tx : List Byte} {chip : Option Chip} {res : PhaseResult}
    (rx : List Byte) (hs : StateInv s) (hf : s.fsm = .wren) (hc : chipAfter ⟨.csBeginEnd, .tx, n⟩ tx res s = .ok chip) :
    StateInv (afterWren res rx (phaseDone ⟨.csBeginEnd, .tx, n⟩ tx res rx chip s)) := by
  have hchip := chipAfter_end hc hs.chip_wf rfl
  refine stateInv_after (by simp) ?_
  rcases afterWren_fsm res rx (phaseDone ⟨.csBeginEnd, .tx, n⟩ tx res rx chip s) with h | h <;> rw [h]
  · exact stateInv_of_unselected (.inr rfl) rfl hs.geometryInv
      (hs.requestInv_phaseDone (by simp [hf]) (by decide) _ _ _ _ _) hchip
  · exact stateInv_of_idle rfl rfl rfl hs.geometryInv hchip

/-- After CMD the chip has its command byte, and a failed CMD is on record (R143, R197). -/
theorem afterCmd_keepsStateInv {s : State} {n : Nat} {chip : Option Chip} {res : PhaseResult} (rx : List Byte)
    (hs : StateInv s) (hf : s.fsm = .cmd) (hm : chipMismatch s = false)
    (hc : chipAfter ⟨.csBegin, .tx, n⟩ [commandByte s.req.op] res s = .ok chip) :
    StateInv (afterCmd res rx (phaseDone ⟨.csBegin, .tx, n⟩ [commandByte s.req.op] res rx chip s)) := by
  have hchip := chipAfter_mem hm hc
  have hreq {f : Fsm} (hne : f ≠ .wren) := hs.requestInv_phaseDone (by simp [hf]) hne
    ⟨.csBegin, .tx, n⟩ [commandByte s.req.op] res rx chip
  refine stateInv_after (by simp) ?_
  rcases afterCmd_fsm res rx (phaseDone ⟨.csBegin, .tx, n⟩ [commandByte s.req.op] res rx chip s) with h | ⟨h, rfl⟩ <;>
    rw [h]
  · refine stateInv_of_selected (.inl rfl) rfl hs.geometryInv (hreq (by decide)) fun c' hc' => ?_
    obtain ⟨c, hmem, ⟨⟩⟩ := hchip c' hc'
    have hhealth : TxnHealth.after .clean res ≠ .continued := by cases res <;> decide
    simp [ChipOk, csAfter, framingEnds, hs.chip_wf c hmem, hhealth]
  · refine stateInv_of_selected (.inr (.inr rfl)) rfl hs.geometryInv (hreq (by decide)) fun c' hc' => ?_
    obtain ⟨c, hmem, ⟨⟩⟩ := hchip c' hc'
    simp [ChipOk, csAfter, framingEnds, hs.chip_wf c hmem]

/-- After an undamaged ADDR the chip has the address too, and a failed ADDR is on record (R144, R197). -/
theorem afterAddr_keepsStateInv {s : State} {n : Nat} {chip : Option Chip} {res : PhaseResult} (rx : List Byte)
    (hs : StateInv s) (hf : s.fsm = .addr) (hm : chipMismatch s = false)
    (hc : chipAfter ⟨.csNone, .tx, n⟩ (latchedBytes s) res s = .ok chip) :
    StateInv (afterAddr res rx (phaseDone ⟨.csNone, .tx, n⟩ (latchedBytes s) res rx chip s)) := by
  have hchip := chipAfter_mem hm hc
  have hreq {f : Fsm} (hne : f ≠ .wren) := hs.requestInv_phaseDone (by simp [hf]) hne
    ⟨.csNone, .tx, n⟩ (latchedBytes s) res rx chip
  have haddr : ∀ c ∈ s.chip, c.txnOpen = true ∧ c.txn = [commandByte s.req.op] := by
    obtain ⟨⟨_, _, _, _, hsel, _⟩, _, _, hall⟩ := hs
    intro c hmem
    obtain ⟨_, hopen, _, haddr, _⟩ := hall c hmem
    exact ⟨hopen.trans (hsel (.inl hf)), (haddr hf).2⟩
  refine stateInv_after (by simp) ?_
  rcases afterAddr_fsm res rx (phaseDone ⟨.csNone, .tx, n⟩ (latchedBytes s) res rx chip s) with h | ⟨h, rfl⟩ <;> rw [h]
  · refine stateInv_of_selected (.inr (.inl rfl)) rfl hs.geometryInv (hreq (by decide)) fun c' hc' => ?_
    obtain ⟨c, hmem, ⟨⟩⟩ := hchip c' hc'
    obtain ⟨hopen, htxn⟩ := haddr c hmem
    have hlatched : latchedBytes (goto .data (phaseDone ⟨.csNone, .tx, n⟩ (latchedBytes s) res rx chip s)) =
      latchedBytes s := rfl
    simp [ChipOk, csAfter, framingEnds, hs.chip_wf c hmem, hopen, htxn, hlatched]
  · refine stateInv_of_selected (.inr (.inr rfl)) rfl hs.geometryInv (hreq (by decide)) fun c' hc' => ?_
    obtain ⟨c, hmem, ⟨⟩⟩ := hchip c' hc'
    obtain ⟨hopen, _⟩ := haddr c hmem
    simp [ChipOk, csAfter, framingEnds, hs.chip_wf c hmem, hopen]

/-- A phase with the End flag that completes the request (R145, R146). -/
theorem afterEnd_keepsStateInv {go : PhaseResult → List Byte → State → State} {s : State} {d : PhaseDesc} {tx : List Byte}
    {chip : Option Chip} {res : PhaseResult} (rx : List Byte) (hs : StateInv s) (hd : framingEnds d.framing = true)
    (hgo : go = afterDataRx ∨ go = afterDataTx ∨ go = afterRelease) (hc : chipAfter d tx res s = .ok chip) :
    StateInv (go res rx (phaseDone d tx res rx chip s)) := by
  refine stateInv_after (.inr (.inr (.inr hgo))) ?_
  rw [afterEnd_fsm hgo]
  exact stateInv_of_idle rfl (by simp [csAfter, hd]) rfl hs.geometryInv (chipAfter_end hc hs.chip_wf hd)

theorem exec_phase_keepsStateInv {i : Instr} {s t : State} (hs : StateInv s) (hp : i.port = .phase)
    (he : exec i s = .next t) : StateInv t := by
  rcases exec_phase_next hp he with ⟨hf, h⟩ | ⟨hf, h⟩ | ⟨hf, n, h⟩ | ⟨hf, dir, n, tx, go, h, hgo⟩
  · exact issue_keepsStateInv hs (by simp [hf]) h fun _ rx _ _ hc => afterWren_keepsStateInv rx hs hf hc
  · exact issue_keepsStateInv hs (by simp [hf]) h fun _ rx _ hm hc => afterCmd_keepsStateInv rx hs hf hm hc
  · exact issue_keepsStateInv hs (by simp [hf]) h fun _ rx _ hm hc => afterAddr_keepsStateInv rx hs hf hm hc
  · have hbusy : s.fsm ≠ .idle := by rcases hf with hf | hf <;> simp [hf]
    exact issue_keepsStateInv hs hbusy h fun _ rx _ _ hc => afterEnd_keepsStateInv rx hs rfl hgo hc

/-! ### Reset and power cycle -/

/-- A reset leaves an idle block, and a chip whose open transaction it has ended (R240, R241); from any state with a canonical
array. -/
theorem resetBlock_stateInv {s : State} (hw : ∀ c ∈ s.chip, Memory.wf c.array) : StateInv (resetBlock s) := by
  refine stateInv_of_idle rfl rfl rfl (geometryInv_of_unbound rfl rfl) fun c' hc' => ?_
  obtain ⟨c, hc, rfl⟩ := Option.map_eq_some_iff.1 hc'
  exact ⟨chipAtReset_wf (chipInterrupted_wf hw c hc), chipAtReset_closed _ _ _ _⟩

theorem cyclePower_stateInv {s : State} (hw : ∀ c ∈ s.chip, Memory.wf c.array) : StateInv (cyclePower s) := by
  have hr := resetBlock_stateInv hw
  refine stateInv_of_idle rfl rfl rfl hr.geometryInv fun c' hc' => ?_
  obtain ⟨c, hc, rfl⟩ := Option.map_eq_some_iff.1 hc'
  exact hr.chipIdle_of_idle rfl c hc

/-! ### The step -/

/-- What `fetch` hands to `exec`, by the port: the block's own phase in the state as it is, a request or configuration operation
in IDLE, or a chip command in IDLE with the transaction put into the chip. -/
theorem fetch_run_cases {s s' : State} {i : Instr} (h : fetch s = .run i s') :
    (∃ wdata agenda, s' = { s with wdata := wdata, agenda := agenda } ∧ i.port ≠ .command) ∨
    s.fsm = .idle ∧ i.port = .command ∧ ∃ c txn clocked agenda, c ∈ s.chip ∧
      s' = { s with chip := some { c.openTxn with txn := txn, clocked := clocked }, agenda := agenda } := by
  have hphase : ∀ agenda, fetchPhase { s with agenda := agenda } = .run i s' →
      ∃ wdata agenda, s' = { s with wdata := wdata, agenda := agenda } ∧ i.port ≠ .command := by
    intro agenda h
    obtain rfl := fetchPhase_run h
    rcases fetchPhase_cases { s with agenda := agenda } with ⟨_, he⟩ | ⟨_, he⟩ | ⟨_, _, _, _, hd, he⟩ <;>
      rw [he] at h <;> cases h
    exact ⟨_, _, rfl, by simp [decodePhase_port hd]⟩
  unfold fetch at h
  split at h
  -- nothing listed, or a pause
  case h_1 | h_2 => exact .inl (hphase _ h)
  -- a reset, a power cycle or a register read
  case h_3 | h_4 | h_5 => cases h
  -- a request or a configuration operation
  case h_6 =>
    split at h
    · exact .inl (hphase _ h)
    · cases h; exact .inl ⟨_, _, rfl, by simp [decodeRequest_port]⟩
  case h_7 =>
    split at h
    · exact .inl (hphase _ h)
    · cases h; exact .inl ⟨_, _, rfl, by simp [decodeConfig_port]⟩
  -- a whole transaction for the chip
  case h_8 =>
    split at h
    · exact .inl (hphase _ h)
    next hb =>
      unfold fetchWire at h
      split at h
      · cases h
      · cases h
      next c b _ hc _ =>
        split at h
        next hd => cases h; exact .inr ⟨by simpa [State.busy] using hb, decodeCommand_port hd, c, _, _, _, hc, rfl⟩
        · cases h

/-- An instruction of each port but the chip's keeps the invariant. -/
theorem exec_keepsStateInv {i : Instr} {s t : State} (hs : StateInv s) (hp : i.port ≠ .command)
    (he : exec i s = .next t) : StateInv t := by
  cases h : i.port with
  | request => exact exec_request_keepsStateInv hs h he
  | config => exact exec_config_keepsStateInv hs h he
  | command => exact absurd h hp
  | phase => exact exec_phase_keepsStateInv hs h he

theorem step_keepsStateInv {s t : State} (hs : StateInv s) (h : step s = .next t) : StateInv t := by
  rcases step_next h with ⟨i, s', hf, he⟩ | hf
  · rcases fetch_run_cases hf with ⟨w, a, rfl, hp⟩ | ⟨hidle, hp, c, txn, clocked, a, hc, rfl⟩
    · have hs' : StateInv { s with wdata := w, agenda := a } := hs
      exact exec_keepsStateInv hs' hp he
    · refine exec_command_stateInv hp he hidle (hs.csActive_of_idle hidle) (hs.outstanding_of_idle hidle) hs.geometryInv ?_
      rintro _ ⟨⟩
      exact hs.chip_wf c hc
  · obtain ⟨a, rfl | rfl | rfl⟩ := fetch_done_next hf
    · exact hs
    · exact resetBlock_stateInv hs.chip_wf
    · exact cyclePower_stateInv hs.chip_wf

/-- Settles O49: a step is an instruction, which keeps the invariant by its port, a reset or a power cycle, which restore it, or
leaves all but the agenda alone. -/
theorem everyStepKeepsTheInvariant : Obligations.EveryStepKeepsTheInvariant := fun _ _ => step_keepsStateInv

/-- Settles O4: State.reset is idle and unbound, and its chip is at power-up. -/
theorem resetIsSound : Obligations.ResetIsSound := by
  refine stateInv_of_idle rfl rfl rfl (geometryInv_of_unbound rfl rfl) ?_
  rintro _ ⟨⟩
  exact ⟨List.Pairwise.nil, rfl⟩

end Sys2Proof.Machine
end

section
/-!
Other blocks of a system (R48, R69): a step of one writes its own place in the list.
-/

namespace Sys2Proof.Machine

/-- A system's step is one step of its block `k`, written back in that place, or nothing where there is no such block. -/
theorem stepInstance_next {k : Nat} {sys sys' : System} (h : stepInstance k sys = .next sys') :
    (sys[k]? = none ∧ sys' = sys) ∨ ∃ s s', sys[k]? = some s ∧ step s = .next s' ∧ sys' = sys.set k s' := by
  unfold stepInstance at h
  split at h
  next hk => cases h; exact .inl ⟨hk, rfl⟩
  next s hk =>
    split at h
    next s' hs => cases h; exact .inr ⟨s, s', hk, hs, rfl⟩
    · cases h
    · cases h

/-- Settles O54: the one place that is written is the stepping block's. -/
theorem instancesDoNotInterfere : Obligations.InstancesDoNotInterfere := by
  intro sys sys' k j h hj
  rcases stepInstance_next h with ⟨_, rfl⟩ | ⟨_, s', _, _, rfl⟩
  · exact ⟨rfl, rfl⟩
  · exact ⟨List.getElem?_set_ne hj.symm, List.length_set⟩

end Sys2Proof.Machine
end

section
/-!
A host's read of a register (R40, R41, R44): which registers are internal, which are response fields, and what the read gives for
each; then the step that reads.
-/

namespace Sys2Proof.Machine

/-! ### Kinds of register -/

theorem Fsm.isReserved_iff (f : Fsm) : f.isReserved = true ↔ f = .reserved6 ∨ f = .reserved7 := by
  cases f <;> simp [Fsm.isReserved]

theorem Reg.internal_iff (r : Reg) : r.internal = true ↔ r ∈ [Reg.reqOp, .reqOffset, .reqLength, .addrLatch, .reqData] := by
  cases r <;> simp [Reg.internal]

theorem Reg.response_iff (r : Reg) :
    r.response = true ↔ r ∈ [Reg.respStatus, .retlen, .errInfo, .errOffset, .errLength, .rdata] := by
  cases r <;> simp [Reg.response]

theorem Reg.internal_eq_false_of_response {r : Reg} (h : r.response = true) : r.internal = false := by
  cases r <;> simp_all [Reg.response, Reg.internal]

/-- The geometry, STATUS and the descriptor outputs are neither (R41, R44). -/
theorem Reg.plain_iff (r : Reg) : r.internal = false ∧ r.response = false ↔
    r ∈ [Reg.geomSize, .geomAw, .status, .descSize, .descWgran, .descEgran, .descClass] := by
  cases r <;> simp [Reg.internal, Reg.response]

/-! ### What the read gives -/

section
variable {r : Reg} {s : State}

theorem hostRead_reserved (hf : s.fsm.isReserved = true) : hostRead r s = .fault .reservedFsm := by
  simp [hostRead, hf]

theorem hostRead_internal (hf : s.fsm.isReserved = false) (hi : r.internal = true) :
    hostRead r s = .refused .internalRegister := by
  simp [hostRead, hf, hi]

theorem hostRead_invalid (hf : s.fsm.isReserved = false) (hr : r.response = true) (hv : s.resp.valid = false) :
    hostRead r s = .fault .responseNotValid := by
  simp [hostRead, hf, Reg.internal_eq_false_of_response hr, hr, hv]

theorem hostRead_reservedStatus (hf : s.fsm.isReserved = false) (hv : s.resp.valid = true)
    (hc : 6 < s.resp.status.toNat) : hostRead .respStatus s = .fault .reservedStatus := by
  simp [hostRead, hf, hv, hc, Reg.internal]

theorem hostRead_value (hf : s.fsm.isReserved = false) (hi : r.internal = false)
    (hv : r.response = true → s.resp.valid = true) (hc : r = .respStatus → s.resp.status.toNat ≤ 6) :
    hostRead r s = .next (s.reg r) := by
  have hvalid : (r.response && !s.resp.valid) = false := by cases h : r.response <;> simp [h, hv]
  have hcode : (r == .respStatus && decide (6 < s.resp.status.toNat)) = false := by
    cases h : r == .respStatus
    · rfl
    · simpa using hc (by simpa using h)
  simp only [hostRead, hf, hi, hvalid, hcode, Bool.false_eq_true, if_false]

end

/-! ### The step that reads -/

section
variable {s : State} {r : Reg} {rest : List EnvAction} (h : s.agenda = .readReg r :: rest)
include h

theorem step_readReg : step s = readStep r rest s := by simp [step, fetch, h]

theorem step_readReg_next {v : RegValue} (hr : hostRead r s = .next v) : step s = .next { s with agenda := rest } := by
  rw [step_readReg h, readStep, hr]

theorem step_readReg_fault {f : Fault} (hr : hostRead r s = .fault f) : step s = .fault f := by
  rw [step_readReg h, readStep, hr]

theorem step_readReg_refused {e : Refusal} (hr : hostRead r s = .refused e) : step s = .refused e := by
  rw [step_readReg h, readStep, hr]

end

/-- Settles O14: each clause is one outcome of the read, and the step that reads ends as the read does. -/
theorem hostReadsChangeNothing : Obligations.HostReadsChangeNothing := by
  intro s r rest h
  refine ⟨fun hf => step_readReg_fault h (hostRead_reserved ((Fsm.isReserved_iff _).2 hf)), fun h6 h7 => ?_⟩
  have hf : s.fsm.isReserved = false := by simp [← Bool.not_eq_true, Fsm.isReserved_iff, h6, h7]
  have hvalue : hostRead r s = .next (s.reg r) →
      hostRead r s = .next (s.reg r) ∧ step s = .next { s with agenda := rest } :=
    fun hr => ⟨hr, step_readReg_next h hr⟩
  refine ⟨fun hi => ?_, fun hr hv => ?_, fun hr hv hc => ?_, fun hr hv hc => ?_, fun hr => ?_⟩
  · exact step_readReg_refused h (hostRead_internal hf ((Reg.internal_iff r).2 hi))
  · exact step_readReg_fault h (hostRead_invalid hf ((Reg.response_iff r).2 hr) hv)
  · exact hvalue (hostRead_value hf (Reg.internal_eq_false_of_response ((Reg.response_iff r).2 hr)) (fun _ => hv) hc)
  · subst hr
    exact step_readReg_fault h (hostRead_reservedStatus hf hv hc)
  · obtain ⟨hi, hresp⟩ := (Reg.plain_iff r).2 hr
    exact hvalue (hostRead_value hf hi (by simp [hresp]) fun hst => by simp [hst, Reg.response] at hresp)

/-! ### Where the fields of a register stand

The fields' widths stay sums under `simp only`, as the append lemmas need them. -/

theorem statusWord_fields (s : State) :
    s.statusWord.extractLsb' 0 1 = BitVec.ofBool s.bound ∧
      s.statusWord.extractLsb' 1 1 = BitVec.ofBool s.busy ∧
      s.statusWord.extractLsb' 2 1 = BitVec.ofBool s.csActive ∧
      s.statusWord.extractLsb' 3 1 = BitVec.ofBool s.resp.valid ∧
      s.statusWord.extractLsb' 4 3 = s.fsm.code ∧
      s.statusWord.extractLsb' 7 25 = 0 := by
  simp (disch := decide) only [State.statusWord, BitVec.extractLsb'_append_eq_of_add_le, BitVec.extractLsb'_append_eq_of_le,
    Nat.reduceSub, BitVec.extractLsb'_eq_self, BitVec.ofNat_eq_ofNat, and_self]

theorem addrLatch_word_fields (a : AddrLatch) :
    a.word.extractLsb' 0 8 = a.b0 ∧ a.word.extractLsb' 8 8 = a.b1 ∧ a.word.extractLsb' 16 8 = a.b2 ∧
      a.word.extractLsb' 24 6 = a.bits ∧ a.word.extractLsb' 30 2 = 0 := by
  simp (disch := decide) only [AddrLatch.word, BitVec.extractLsb'_append_eq_of_add_le, BitVec.extractLsb'_append_eq_of_le,
    Nat.reduceSub, BitVec.extractLsb'_eq_self, BitVec.ofNat_eq_ofNat, and_self]

theorem errorRecord_word_fields (e : ErrorRecord) :
    e.word.extractLsb' 0 2 = e.op ∧ e.word.extractLsb' 2 3 = e.phase ∧ e.word.extractLsb' 5 1 = BitVec.ofBool e.cfg ∧
      e.word.extractLsb' 6 2 = 0 ∧ e.word.extractLsb' 8 8 = e.width ∧ e.word.extractLsb' 16 16 = 0 := by
  simp (disch := decide) only [ErrorRecord.word, BitVec.extractLsb'_append_eq_of_add_le, BitVec.extractLsb'_append_eq_of_le,
    Nat.reduceSub, BitVec.extractLsb'_eq_self, BitVec.ofNat_eq_ofNat, and_self]

theorem busy_eq_decide (s : State) : s.busy = decide (s.fsm ≠ .idle) := by
  by_cases h : s.fsm = .idle <;> simp [State.busy, h]

/-- Settles O15: the three packed words by their fields, the other registers by unfolding. -/
theorem registerWordsHoldTheirFields : Obligations.RegisterWordsHoldTheirFields := by
  intro s
  have hstatus := statusWord_fields s
  rw [busy_eq_decide] at hstatus
  exact ⟨hstatus, addrLatch_word_fields s.addr, errorRecord_word_fields s.err,
    rfl, rfl, rfl, rfl, rfl, rfl, rfl, rfl, rfl, rfl, rfl, rfl, rfl⟩

end Sys2Proof.Machine
end

section
/-!
The request port and its write data (R42, F6): a request that the port refuses ends in that refusal, whatever its instruction, and a
decoded descriptor is held to its op field alone (log entry 18).
-/

namespace Sys2Proof.Machine

/-! ### The port -/

section
variable {op : ReqOp} {l : Word32} {s : State} {data : List Byte} (hf : s.fsm = .idle)
include hf

theorem portRefusal_write_missing (hw : s.wdata = none) : portRefusal .write l s = some .wdataMissing := by
  simp [portRefusal, State.busy, hf, hw]

theorem portRefusal_write_length (hw : s.wdata = some data) (hl : data.length ≠ l.toNat) :
    portRefusal .write l s = some .wdataWrongLength := by
  simp [portRefusal, State.busy, hf, hw, hl]

theorem portRefusal_unexpected (hop : op ≠ .write) (hw : s.wdata = some data) :
    portRefusal op l s = some .wdataUnexpected := by
  cases op
  case write => exact absurd rfl hop
  all_goals simp [portRefusal, State.busy, hf, hw]

end

/-! ### The instructions -/

/-- What the port refuses, a descriptor's instruction ends in, whatever its reserved bits. -/
theorem exec_decodeRequest_refused {d : BitVec 72} {s : State} {r : Refusal}
    (h : portRefusal (ReqOp.ofCode (d.extractLsb' 0 2)) (d.extractLsb' 40 32) s = some r) :
    exec (decodeRequest d) s = .refused r := by
  unfold decodeRequest
  dsimp only
  split
  · cases hop : ReqOp.ofCode (d.extractLsb' 0 2) <;> rw [hop] at h <;>
      simp [exec, execRead, execWrite, execErase, execSync, h]
  · simp [exec, execInvalidRequest, h]

theorem reqOp_ofCode_eq_write_iff (c : BitVec 2) : ReqOp.ofCode c = .write ↔ c = 1 := by
  revert c; decide

/-- Settles O27: the port's three refusals, at each instruction and at each descriptor. -/
theorem malformedWriteDataIsRefused : Obligations.MalformedWriteDataIsRefused := by
  intro s offset length data hf
  refine ⟨fun hw => ?_, fun hw hl => ?_, fun hw => ?_, fun d => ⟨fun hop hw => ?_, fun hop hw hl => ?_, fun hop hw => ?_⟩⟩
  · simp [exec, execWrite, portRefusal_write_missing hf hw]
  · simp [exec, execWrite, portRefusal_write_length hf hw hl]
  · have hr (op : ReqOp) (hop : op ≠ .write) := portRefusal_unexpected (l := length) hf hop hw
    simp [exec, execRead, execErase, execZfill, execSync, hr]
  · exact exec_decodeRequest_refused ((reqOp_ofCode_eq_write_iff _).2 hop ▸ portRefusal_write_missing hf hw)
  · exact exec_decodeRequest_refused ((reqOp_ofCode_eq_write_iff _).2 hop ▸ portRefusal_write_length hf hw hl)
  · exact exec_decodeRequest_refused (portRefusal_unexpected hf (mt (reqOp_ofCode_eq_write_iff _).1 hop) hw)

end Sys2Proof.Machine
end

section
/-!
The address of a request in progress (R51, R58, R104): the encoder is big-endian and cuts the offset to the width, the latch
holds its output, and in a device of the variant table an offset that passed validation fits the width.
-/

namespace Sys2Proof.Machine

/-- The encoder's bytes are the offset, big-endian, cut to the width; their number and bit length are the width's (R101). -/
theorem encodeAddr_value {o : Word32} {w : Byte} {bytes : List Byte} {bits : BitVec 6}
    (h : encodeAddr o w = .ok (bytes, bits)) :
    beNat bytes = o.toNat % 2 ^ (8 * w.toNat) ∧ bytes.length = w.toNat ∧ bits.toNat = 8 * w.toNat := by
  rcases encodeAddr_ok h with ⟨rfl, rfl, rfl⟩ | ⟨rfl, rfl, rfl⟩ <;> refine ⟨?_, rfl, rfl⟩ <;>
    simp [beNat, BitVec.toNat_setWidth, Nat.shiftRight_eq_div_pow] <;> omega

/-- A row of the variant table has a width that the encoder takes, and every address of the device fits it (R51, R174). -/
theorem aw_of_isVariant {g : Geometry} (h : isVariant g) :
    (g.aw = 2 ∨ g.aw = 3) ∧ g.size.toNat < 2 ^ (8 * g.aw.toNat) := by
  rcases h with rfl | rfl | rfl | rfl <;> decide

/-- In a sound busy state the address latch holds what the encoder gave for the request (R104). -/
theorem StateInv.addr_of_busy {s : State} (hs : StateInv s) (hf : s.fsm ≠ .idle) :
    ∃ bytes bits, encodeAddr s.req.offset s.geom.aw = .ok (bytes, bits) ∧ s.addr = latchOf bytes bits := by
  obtain ⟨_, _, hreq, _⟩ := hs
  obtain ⟨_, _, _, hmatch, _, _⟩ := hreq hf
  unfold latchMatches at hmatch
  split at hmatch
  next bytes bits he => exact ⟨bytes, bits, he, by simpa using hmatch⟩
  · cases hmatch

/-- The ADDR phase sends the bytes that the encoder gave (R144). -/
theorem latchedBytes_of_latchOf {s : State} {bytes : List Byte} {bits : BitVec 6}
    (he : encodeAddr s.req.offset s.geom.aw = .ok (bytes, bits)) (ha : s.addr = latchOf bytes bits) :
    latchedBytes s = bytes := by
  rcases encodeAddr_ok he with ⟨hw, rfl, rfl⟩ | ⟨hw, rfl, rfl⟩ <;> simp [latchedBytes, hw, ha, latchOf]

theorem StateInv.inBounds_of_busy {s : State} (hs : StateInv s) (hf : s.fsm ≠ .idle) :
    s.req.offset.toNat + s.req.length.toNat ≤ s.geom.size.toNat :=
  let ⟨_, _, hreq, _⟩ := hs
  let ⟨_, _, _, _, hin, _⟩ := hreq hf
  hin

theorem StateInv.isVariant_of_busy {s : State} (hs : StateInv s) (hf : s.fsm ≠ .idle) : isVariant s.geom :=
  let ⟨_, ⟨hbound, _⟩, hreq, _⟩ := hs
  let ⟨hb, _⟩ := hreq hf
  hbound hb

/-- The address of a request in progress: GEOM_AW bytes, whose value is the offset, sent in ADDR_BITS bits. -/
theorem StateInv.latchedBytes_of_busy {s : State} (hs : StateInv s) (hf : s.fsm ≠ .idle) :
    beNat (latchedBytes s) = s.req.offset.toNat ∧ (latchedBytes s).length = s.geom.aw.toNat ∧
      s.addr.bits.toNat = 8 * s.geom.aw.toNat := by
  obtain ⟨bytes, bits, he, ha⟩ := hs.addr_of_busy hf
  obtain ⟨hvalue, hlength, hbits⟩ := encodeAddr_value he
  have hfits : s.req.offset.toNat < 2 ^ (8 * s.geom.aw.toNat) := by
    have hin := hs.inBounds_of_busy hf
    have hsize := (aw_of_isVariant (hs.isVariant_of_busy hf)).2
    omega
  rw [latchedBytes_of_latchOf he ha, hvalue, Nat.mod_eq_of_lt hfits, ha]
  exact ⟨rfl, hlength, hbits⟩

/-- Settles O18: the latch holds the encoder's output, and an offset inside the device is not cut. -/
theorem soundStatesSendTheOffset : Obligations.SoundStatesSendTheOffset := by
  intro s hs hf
  obtain ⟨hvalue, _, hbits⟩ := hs.latchedBytes_of_busy hf
  exact ⟨hvalue, hs.inBounds_of_busy hf, hbits⟩

end Sys2Proof.Machine
end

section
/-!
The words of the block's phases and of the requests, read back (R76, R79, R87).
-/

namespace Sys2Proof

/-- A descriptor of R87 is the word of its instruction. -/
theorem PhaseDesc.encode_of_instr {d : PhaseDesc} {i : Instr} (h : d.instr = .ok i) : encode i = d.word := by
  obtain ⟨f, r, n⟩ := d
  unfold PhaseDesc.instr at h
  repeat' split at h
  all_goals cases h
  all_goals simp_all [encode]

/-- No phase of R87 has the reserved direction (R78). -/
theorem PhaseDesc.dir_ne_reserved_of_instr {d : PhaseDesc} {i : Instr} (h : d.instr = .ok i) : d.dir ≠ .reserved := by
  rintro hd
  cases hf : d.framing <;> simp [PhaseDesc.instr, hd, hf] at h

/-- A phase of whole bytes decodes from its word (R76). -/
theorem decodePhase_word {d : PhaseDesc} {i : Instr} (hb : d.bits % 8 = 0) (h : d.instr = .ok i) :
    decodePhase d.word = .ok i := by
  have hr : d.dir.code < 3 := by
    cases hd : d.dir
    case reserved => exact absurd hd (PhaseDesc.dir_ne_reserved_of_instr h)
    all_goals decide
  have hf := d.framing.code_lt
  rw [decodePhase, PhaseDesc.ofWord_word, h, PhaseDesc.word, if_neg (by omega), if_neg (by omega), if_neg (by omega)]

@[simp] theorem ReqOp.ofCode_code (op : ReqOp) : ReqOp.ofCode op.code = op := by cases op <;> rfl

/-- The fields of a request descriptor's word (R79). -/
theorem requestWord_fields (op : ReqOp) (r : BitVec 6) (o l : Word32) :
    (BitVec.ofNat 72 (requestWord op r o l)).extractLsb' 0 2 = op.code ∧
      (BitVec.ofNat 72 (requestWord op r o l)).extractLsb' 2 6 = r ∧
      (BitVec.ofNat 72 (requestWord op r o l)).extractLsb' 8 32 = o ∧
      (BitVec.ofNat 72 (requestWord op r o l)).extractLsb' 40 32 = l := by
  refine ⟨?_, ?_, ?_, ?_⟩ <;> apply BitVec.eq_of_toNat_eq <;>
    simp only [BitVec.extractLsb'_toNat, BitVec.toNat_ofNat, requestWord, Nat.shiftRight_eq_div_pow] <;> omega

end Sys2Proof
end

section
/-!
The phases of a request, every phase answered OK and the chip attached (R120, R142 to R145, R193, R195, R198): which step each
is, and the state it leaves. A store is a WRITE or an ERASE, whose phases are the same (R156).
-/

namespace Sys2Proof.Machine

/-! ### The step of a busy block -/

/-- The environment lets the block go on while it is busy: nothing is listed, or an action that waits (R250). -/
def Waits : List EnvAction → Prop
  | [] => True
  | .request _ _ :: _ => True
  | .config _ :: _ => True
  | .wire _ _ :: _ => True
  | .readReg _ :: _ => False
  | .pause :: _ => False
  | .reset :: _ => False
  | .powerCycle :: _ => False

theorem fetch_of_waits {s : State} (hw : Waits s.agenda) (hf : s.fsm ≠ .idle) : fetch s = fetchPhase s := by
  have hb : s.busy = true := by simpa [State.busy] using hf
  unfold fetch
  split <;> simp_all [Waits]

/-- The step of a busy block is the phase of its state (R141). -/
theorem step_of_phaseDesc {s : State} {d : PhaseDesc} {i : Instr} {o : Host.Outcome State Fault Refusal}
    (hw : Waits s.agenda) (hd : phaseDesc s = some d) (hb : d.bits % 8 = 0) (hi : d.instr = .ok i)
    (ho : exec i s = inTurn i s o) : step s = o := by
  have hword : phaseWord s = some d.word := by rw [phaseWord, hd]; rfl
  have hdecode := decodePhase_word hb hi
  have hfetch : fetch s = .run i s := by
    rcases phaseDesc_cases hd with ⟨h, _⟩ | ⟨h, _⟩ | ⟨h, _⟩ | ⟨h, _⟩ | ⟨h, _⟩ <;>
      rw [fetch_of_waits hw (by simp [h])] <;> simp [fetchPhase, h, hword, hdecode]
  rw [step_run hfetch, ho, inTurn, if_pos (by rw [hword, PhaseDesc.encode_of_instr hi])]

/-! ### A phase answered OK -/

/-- The next answer of the bus engine is listed, and OK. -/
theorem AnswersOk.head {n : Nat} {s : State} (h : AnswersOk (n + 1) s) :
    ∃ given, s.busAnswers = .answered .ok given :: s.busAnswers.tail := by
  obtain ⟨hn, hok⟩ := h
  cases ha : s.busAnswers with
  | nil => simp [ha] at hn
  | cons a rest =>
    obtain ⟨given, rfl⟩ := hok a (by simp [ha])
    exact ⟨given, rfl⟩

/-- After `m` of `k` OK answers the next ones are OK too. -/
theorem AnswersOk.drop {k n : Nat} {s t : State} (h : AnswersOk k s) (m : Nat) (hk : m + n ≤ k)
    (ht : t.busAnswers = s.busAnswers.drop m) : AnswersOk n t := by
  obtain ⟨hn, hok⟩ := h
  refine ⟨by rw [ht, List.length_drop]; omega, fun a ha => hok a ?_⟩
  rw [ht, List.take_drop] at ha
  exact List.take_subset_take_left _ hk (List.mem_of_mem_drop ha)

/-- A phase that the bus engine has a meaning for, answered OK, with the bound chip attached. -/
theorem issue_ok {d : PhaseDesc} {tx : List Byte} (go : PhaseResult → List Byte → State → State) {s : State} {c c' : Chip}
    (hf : phaseFault d tx s = none) (hc : s.chip = some c) (hfit : ChipFits s) (ha : AnswersOk 1 s)
    (hp : chipPhase s.geom s.draws d tx .ok { c with geom := some s.geom } = .ok c') :
    ∃ given, issue d tx go s =
      .next (go .ok (receivedBytes s.draws d .ok given (some c) (some c'))
        (phaseDone d tx .ok (receivedBytes s.draws d .ok given (some c) (some c')) (some c') s)) := by
  have hg : chipGeometry s c = s.geom := by
    rcases hfit c hc with h | h <;> simp [chipGeometry, h]
  obtain ⟨given, hgiven⟩ := ha.head
  refine ⟨given, hc ▸ issue_answered go hf (by simp [chipMismatch, hc, hg]) hgiven ?_⟩
  simp [chipAfter, hc, hg, hp]

/-- A phase that sends receives nothing. -/
theorem issue_tx_ok {f : Framing} {n : Nat} {tx : List Byte} (go : PhaseResult → List Byte → State → State) {s : State}
    {c c' : Chip} (hcs : framingLegal f s.csActive = true) (hn : tx.length = n / 8) (hc : s.chip = some c)
    (hfit : ChipFits s) (ha : AnswersOk 1 s)
    (hp : chipPhase s.geom s.draws ⟨f, .tx, n⟩ tx .ok { c with geom := some s.geom } = .ok c') :
    issue ⟨f, .tx, n⟩ tx go s = .next (go .ok [] (phaseDone ⟨f, .tx, n⟩ tx .ok [] (some c') s)) := by
  obtain ⟨_, h⟩ := issue_ok go (by simp [phaseFault, hcs, hn]) hc hfit ha hp
  exact h

theorem afterWren_ok (rx : List Byte) (s : State) : afterWren .ok rx s = goto .cmd s := rfl

theorem afterCmd_ok (rx : List Byte) (s : State) : afterCmd .ok rx s = goto .addr s := rfl

theorem afterAddr_ok (rx : List Byte) (s : State) : afterAddr .ok rx s = goto .data s := rfl

/-! ### What the invariant says of a busy block -/

theorem StateInv.op_of_busy {s : State} (hs : StateInv s) (hf : s.fsm ≠ .idle) :
    s.req.op ≠ .sync ∧ (s.fsm = .wren → s.req.op ≠ .read) ∧ s.req.data.length = dataCount s.req :=
  let ⟨_, _, hreq, _⟩ := hs
  let ⟨_, hsync, hread, _, _, hdata⟩ := hreq hf
  ⟨hsync, hread, hdata⟩

theorem StateInv.csActive_of_unselected {s : State} (hs : StateInv s) (hf : s.fsm = .wren ∨ s.fsm = .cmd) :
    s.csActive = false :=
  let ⟨⟨_, _, _, hpre, _, _⟩, _⟩ := hs
  hpre hf

theorem StateInv.csActive_of_selected {s : State} (hs : StateInv s)
    (hf : s.fsm = .addr ∨ s.fsm = .data ∨ s.fsm = .abort) : s.csActive = true :=
  let ⟨⟨_, _, _, _, hsel, _⟩, _⟩ := hs
  hsel hf

/-- While selected the chip is the bound one (R191). -/
theorem StateInv.chip_geom_of_selected {s : State} {c : Chip} (hs : StateInv s)
    (hf : s.fsm = .addr ∨ s.fsm = .data ∨ s.fsm = .abort) (hc : s.chip = some c) : c.geom = some s.geom :=
  let ⟨_, _, _, hchip⟩ := id hs
  let ⟨_, _, hgeom, _⟩ := hchip c hc
  hgeom (hs.csActive_of_selected hf)

/-- Before DATA the chip of an undamaged transaction holds the command and the address (R192). -/
theorem StateInv.chip_txn_of_data {s : State} {c : Chip} (hs : StateInv s) (hf : s.fsm = .data) (hc : s.chip = some c)
    (hh : c.health = .clean) : c.txn = commandByte s.req.op :: latchedBytes s :=
  let ⟨_, _, _, hchip⟩ := hs
  let ⟨_, _, _, _, hdata, _⟩ := hchip c hc
  hdata hf hh

/-! ### Which phase each state issues, whatever the answer -/

section
variable {s : State} (hs : StateInv s) (hw : Waits s.agenda)
include hs hw

theorem step_wren (hf : s.fsm = .wren) : step s = issue ⟨.csBeginEnd, .tx, 8⟩ [wrenByte] afterWren s := by
  obtain ⟨hsync, hread, _⟩ := hs.op_of_busy (by simp [hf])
  have hd : phaseDesc s = some ⟨.csBeginEnd, .tx, 8⟩ := by
    cases hop : s.req.op <;> simp_all [phaseDesc]
  exact step_of_phaseDesc hw hd rfl rfl rfl

theorem step_cmd (hf : s.fsm = .cmd) : step s = issue ⟨.csBegin, .tx, 8⟩ [commandByte s.req.op] afterCmd s := by
  obtain ⟨hsync, _⟩ := hs.op_of_busy (by simp [hf])
  have hd : phaseDesc s = some ⟨.csBegin, .tx, 8⟩ := by
    cases hop : s.req.op <;> simp_all [phaseDesc]
  exact step_of_phaseDesc hw hd rfl rfl rfl

/-- ADDR moves as many bytes as the bound width has (R144). -/
theorem step_addr (hf : s.fsm = .addr) :
    step s = issue ⟨.csNone, .tx, 8 * s.geom.aw.toNat⟩ (latchedBytes s) afterAddr s := by
  have hbusy : s.fsm ≠ .idle := by simp [hf]
  obtain ⟨hsync, _⟩ := hs.op_of_busy hbusy
  obtain ⟨_, _, hbits⟩ := hs.latchedBytes_of_busy hbusy
  have hd : phaseDesc s = phaseDesc.addrDesc s := by
    cases hop : s.req.op <;> simp_all [phaseDesc]
  rcases (aw_of_isVariant (hs.isVariant_of_busy hbusy)).1 with haw | haw
  · have hlatched : s.addr.bits = 16 := BitVec.eq_of_toNat_eq (by rw [hbits, haw]; rfl)
    refine step_of_phaseDesc (d := ⟨.csNone, .tx, 16⟩) (i := .phAddr2) hw ?_ rfl rfl ?_
    · simp [hd, phaseDesc.addrDesc, haw, hlatched]
    · simp [exec, execPhAddr2, latchedBytes, haw, hlatched]
  · have hlatched : s.addr.bits = 24 := BitVec.eq_of_toNat_eq (by rw [hbits, haw]; rfl)
    refine step_of_phaseDesc (d := ⟨.csNone, .tx, 24⟩) (i := .phAddr3) hw ?_ rfl rfl ?_
    · simp [hd, phaseDesc.addrDesc, haw, hlatched]
    · simp [exec, execPhAddr3, latchedBytes, haw, hlatched]

omit hs in
theorem step_data_read (hf : s.fsm = .data) (hop : s.req.op = .read) :
    step s = issue ⟨.csEnd, .rx, 8 * s.req.length.toNat⟩ [] afterDataRx s :=
  step_of_phaseDesc (d := ⟨.csEnd, .rx, 8 * s.req.length.toNat⟩) hw (by simp [phaseDesc, hf, hop])
    (Nat.mul_mod_right _ _) rfl rfl

theorem step_data_store (hf : s.fsm = .data) (hop : s.req.op ≠ .read) :
    step s = issue ⟨.csEnd, .tx, 8 * s.req.length.toNat⟩ s.req.data afterDataTx s := by
  obtain ⟨hsync, _⟩ := hs.op_of_busy (by simp [hf])
  have hd : phaseDesc s = some ⟨.csEnd, .tx, 8 * s.req.length.toNat⟩ := by
    cases h : s.req.op <;> simp_all [phaseDesc]
  exact step_of_phaseDesc hw hd (Nat.mul_mod_right _ _) rfl rfl

end

/-! ### The phases answered OK -/

section
variable {s : State} {c : Chip} (hs : StateInv s) (hc : s.chip = some c) (hfit : ChipFits s) (hw : Waits s.agenda)
  (ha : AnswersOk 1 s)
include hs hc hfit hw ha

/-- WREN sets the chip's latch (R142, R198). -/
theorem step_wren_ok (hf : s.fsm = .wren) :
    step s = .next (goto .cmd (phaseDone ⟨.csBeginEnd, .tx, 8⟩ [wrenByte] .ok []
      (some { c.closeTxn with geom := some s.geom, wel := true }) s)) := by
  have hcs := hs.csActive_of_unselected (.inl hf)
  rw [step_wren hs hw hf, ← afterWren_ok]
  exact issue_tx_ok afterWren (by rw [hcs]; rfl) rfl hc hfit ha rfl

/-- CMD opens the transaction with the command byte (R143). -/
theorem step_cmd_ok (hf : s.fsm = .cmd) :
    step s = .next (goto .addr (phaseDone ⟨.csBegin, .tx, 8⟩ [commandByte s.req.op] .ok []
      (some { c.openTxn with geom := some s.geom, txn := [commandByte s.req.op] }) s)) := by
  have hcs := hs.csActive_of_unselected (.inr hf)
  rw [step_cmd hs hw hf, ← afterCmd_ok]
  exact issue_tx_ok afterCmd (by rw [hcs]; rfl) rfl hc hfit ha rfl

/-- ADDR sends the address after it (R144). -/
theorem step_addr_ok (hf : s.fsm = .addr) (hh : c.health = .clean) :
    step s = .next (goto .data (phaseDone ⟨.csNone, .tx, 8 * s.geom.aw.toNat⟩ (latchedBytes s) .ok []
      (some { c with txn := c.txn ++ latchedBytes s }) s)) := by
  have hcs := hs.csActive_of_selected (.inl hf)
  have hgeom := hs.chip_geom_of_selected (.inl hf) hc
  obtain ⟨_, hlength, _⟩ := hs.latchedBytes_of_busy (by simp [hf])
  rw [step_addr hs hw hf, ← afterAddr_ok]
  refine issue_tx_ok afterAddr (by rw [hcs]; rfl) (by simp [hlength]) hc hfit ha ?_
  simp [chipPhase, hh, TxnHealth.after, ← hgeom]

/-- DATA of a READ receives the array's bytes from the offset on and completes the request with them (R145, R193). -/
theorem step_data_read_ok (hf : s.fsm = .data) (hop : s.req.op = .read) (hh : c.health = .clean) :
    let data := c.bytes s.req.offset.toNat s.req.length.toNat
    step s = .next (complete .ok s.req.length data (phaseDone ⟨.csEnd, .rx, 8 * s.req.length.toNat⟩ [] .ok data
      (some { c.closeTxn with out := data }) s)) := by
  intro data
  have hbusy : s.fsm ≠ .idle := by simp [hf]
  have hcs := hs.csActive_of_selected (.inr (.inl hf))
  have hgeom := hs.chip_geom_of_selected (.inr (.inl hf)) hc
  obtain ⟨hvalue, hlength, _⟩ := hs.latchedBytes_of_busy hbusy
  have htxn : c.txn = readByte :: latchedBytes s := by rw [hs.chip_txn_of_data hf hc hh, hop]; rfl
  have hin : dataInArray s.geom s.req.offset.toNat s.req.length.toNat = true := by
    simp [dataInArray, hs.inBounds_of_busy hbusy]
  have hphase : chipPhase s.geom s.draws ⟨.csEnd, .rx, 8 * s.req.length.toNat⟩ [] .ok { c with geom := some s.geom } =
      .ok { c.closeTxn with out := data } := by
    simp [chipPhase, chipAct, chipRead, hh, htxn, splitAddress_exact hlength, hvalue, hin, ← hgeom, Chip.closeTxn,
      Chip.bytes, Chip.byte, data]
  obtain ⟨given, hissue⟩ := issue_ok afterDataRx (by simp [phaseFault, hcs, framingLegal, framingBegins]) hc hfit ha hphase
  have hrx : receivedBytes s.draws ⟨.csEnd, .rx, 8 * s.req.length.toNat⟩ .ok given (some c)
      (some { c.closeTxn with out := data }) = data := by
    simpa [receivedBytes, hh, data] using fitBytes_exact s.draws data
  rw [step_data_read hw hf hop, hissue, hrx]
  rfl

/-- DATA of a WRITE or ERASE stores REQ_DATA from the offset on, when the latch is set, and completes the request (R145,
R195). -/
theorem step_data_store_ok (hf : s.fsm = .data) (hop : s.req.op ≠ .read) (hh : c.health = .clean) (hwel : c.wel = true) :
    step s = .next (complete .ok s.req.length [] (phaseDone ⟨.csEnd, .tx, 8 * s.req.length.toNat⟩ s.req.data .ok []
      (some { c.closeTxn with array := Memory.writeBytes c.array s.req.offset.toNat s.req.data, wel := false }) s)) := by
  have hbusy : s.fsm ≠ .idle := by simp [hf]
  have hcs := hs.csActive_of_selected (.inr (.inl hf))
  have hgeom := hs.chip_geom_of_selected (.inr (.inl hf)) hc
  obtain ⟨hsync, _, hdata⟩ := hs.op_of_busy hbusy
  obtain ⟨hvalue, hlength, _⟩ := hs.latchedBytes_of_busy hbusy
  obtain ⟨hcount, hcmd⟩ : s.req.data.length = s.req.length.toNat ∧ commandByte s.req.op = writeByte := by
    rw [hdata]; cases h : s.req.op <;> simp_all [dataCount, commandByte]
  have hin : dataInArray s.geom s.req.offset.toNat s.req.data.length = true := by
    simp [dataInArray, hcount, hs.inBounds_of_busy hbusy]
  have hphase : chipPhase s.geom s.draws ⟨.csEnd, .tx, 8 * s.req.length.toNat⟩ s.req.data .ok
      { c with geom := some s.geom } =
      .ok { c.closeTxn with array := Memory.writeBytes c.array s.req.offset.toNat s.req.data, wel := false } := by
    simp [chipPhase, chipAct, chipWrite, hh, hwel, hs.chip_txn_of_data hf hc hh, hcmd, splitAddress_append hlength, hvalue,
      hin, ← hgeom, readByte, writeByte]
  rw [step_data_store hs hw hf hop]
  exact issue_tx_ok afterDataTx (by rw [hcs]; rfl) (by simp [hcount]) hc hfit ha hphase

end

end Sys2Proof.Machine
end

section
/-!
Whole requests, every phase answered OK and the chip attached (R120, R150, R152, R156): the step that accepts a presented READ,
WRITE or ERASE, the run of its phases, and the state at its end. From these a READ after a WRITE of the same place (R63 (c)).
-/

namespace Sys2Proof.Machine

/-! ### A presented transfer -/

/-- The word of a transfer decodes to a transfer of the same operands; ZFILL's word is ERASE's (R91). -/
theorem decodeRequest_transfers {op : ReqOp} {o l : Word32} {i : Instr} (h : Transfers op o l i) :
    Transfers op o l (decodeRequest (BitVec.ofNat 72 (encode i))) := by
  cases op <;> simp only [Transfers] at h ⊢
  case read | write => subst h; simp only [encode, decodeRequest, requestWord_fields, ReqOp.ofCode_code, reduceIte]
  case erase =>
    rcases h with rfl | rfl <;>
      simp only [encode, decodeRequest, requestWord_fields, ReqOp.ofCode_code, reduceIte, true_or]

/-- A transfer that the port takes is accepted, validated and started (R131, R132). -/
theorem exec_transfers {op : ReqOp} {o l : Word32} {i : Instr} {s : State} (h : Transfers op o l i)
    (hp : portRefusal op l s = none) : exec i s = .next (startTransfer (acceptRequest op o l s)) := by
  cases op <;> simp only [Transfers] at h
  case read => subst h; simp [exec, execRead, hp]
  case write => subst h; simp [exec, execWrite, hp]
  case erase => rcases h with rfl | rfl <;> simp [exec, execErase, execZfill, hp]

/-- A well-presented request is taken, and its data are latched (R31, R42). -/
theorem Presents.taken {op : ReqOp} {l : Word32} {data : List Byte} {s : State} (h : Presents op l data s) :
    portRefusal op l s = none ∧ reqData op l s.wdata = data := by
  obtain ⟨hf, hd⟩ := h
  rw [portRefusal_none_iff]
  cases op <;> obtain ⟨hw, hd⟩ := hd <;> simp [reqData, hf, hw, hd]

/-- Inside a device of the variant table the encoder's output is latched and the first phase is set (R132). -/
theorem startTransfer_of_inBounds {s : State} (hg : isVariant s.geom)
    (hin : s.req.offset.toNat + s.req.length.toNat ≤ s.geom.size.toNat) :
    ∃ a, startTransfer s = { s with addr := a, fsm := firstPhase s.req.op } := by
  rcases startTransfer_cases s with ⟨h2, h3, _⟩ | ⟨_, _, _, hb, _⟩ | ⟨_, _, _, _, h⟩
  · exact ((aw_of_isVariant hg).1.elim h2 h3).elim
  · exact absurd ((inBounds_iff _ _ _).2 hin) (by simp [hb])
  · exact ⟨_, h⟩

/-- A transfer inside the device, presented to an idle bound block, is accepted in one step (R131, R132). -/
theorem step_accepts_transfer {op : ReqOp} {o l : Word32} {i : Instr} {data : List Byte} {w : Option (List Byte)}
    {rest : List EnvAction} {s : State} (hg : isVariant s.geom) (hin : o.toNat + l.toNat ≤ s.geom.size.toNat)
    (hi : Transfers op o l i) (hag : s.agenda = .request (BitVec.ofNat 72 (encode i)) w :: rest)
    (hp : Presents op l data { s with wdata := w, agenda := rest }) :
    ∃ a, step s = .next { s with
      fsm := firstPhase op, req := ⟨op, o, l, data⟩, addr := a, resp := clearedResponse, err := clearedError,
      wdata := none, agenda := rest } := by
  have hidle : s.fsm = .idle := hp.1
  have hfetch : fetch s = .run (decodeRequest (BitVec.ofNat 72 (encode i))) { s with wdata := w, agenda := rest } := by
    simp [fetch, hag, State.busy, hidle]
  obtain ⟨htaken, rfl⟩ := hp.taken
  obtain ⟨a, ha⟩ := startTransfer_of_inBounds (s := acceptRequest op o l { s with wdata := w, agenda := rest }) hg hin
  exact ⟨a, by rw [step_run hfetch, exec_transfers (decodeRequest_transfers hi) htaken, ha]; rfl⟩

/-! ### The phases in a row -/

theorem run_keepsStateInv {n : Nat} {s t : State} (hs : StateInv s) (h : Sys2Proof.core.run n s = .next t) : StateInv t := by
  induction n generalizing s with
  | zero => cases h; exact hs
  | succ n ih =>
    by_cases hn : ∃ s', step s = .next s'
    · obtain ⟨s', hs'⟩ := hn
      exact ih (step_keepsStateInv hs hs') (run_succ n hs' ▸ h)
    · exact absurd h (run_stops n (fun s' hs' => hn ⟨s', hs'⟩) t)

/-- A chip that is known to be the bound one fits. -/
theorem chipFits_of_geom {s : State} {c : Chip} (hc : s.chip = some c) (hg : c.geom = some s.geom) : ChipFits s := by
  intro x hx
  rw [hc] at hx
  cases hx
  exact .inr hg

section
variable {s : State} {c : Chip} (hs : StateInv s) (hc : s.chip = some c) (hfit : ChipFits s) (hw : Waits s.agenda)
include hs hc hfit hw

/-- CMD and ADDR bring the command byte and the address to the chip (R143, R144). -/
theorem run_cmd_addr_ok (hf : s.fsm = .cmd) (ha : AnswersOk 2 s) :
    Sys2Proof.core.run 2 s = .next { s with
      fsm := .data, csActive := true, outstanding := false, busAnswers := s.busAnswers.drop 2, draws := s.draws + 2
      chip := some { c.openTxn with geom := some s.geom, txn := commandByte s.req.op :: latchedBytes s }
      trace := s.trace ++ [⟨⟨.csBegin, .tx, 8⟩, [commandByte s.req.op], .ok, []⟩,
        ⟨⟨.csNone, .tx, 8 * s.geom.aw.toNat⟩, latchedBytes s, .ok, []⟩] } := by
  have hcmd := step_cmd_ok hs hc hfit hw (ha.drop 0 (by decide) rfl) hf
  have haddr := step_addr_ok (step_keepsStateInv hs hcmd) rfl (chipFits_of_geom rfl rfl) hw (ha.drop 1 le_rfl (by simp))
    rfl rfl
  rw [run_succ _ hcmd, run_succ _ haddr, run_zero]
  simp [goto, phaseDone, takeBusAnswer, csAfter, framingEnds, latchedBytes, ← List.drop_one, Nat.add_assoc]

/-- The phases of a READ: the array's bytes from the offset on come back, and the array is as before (R120, R150). -/
theorem run_read_phases_ok (hf : s.fsm = .cmd) (hop : s.req.op = .read) (ha : AnswersOk 3 s) :
    let data := c.bytes s.req.offset.toNat s.req.length.toNat
    Sys2Proof.core.run 3 s = .next { s with
      fsm := .idle, csActive := false, outstanding := false, busAnswers := s.busAnswers.drop 3, draws := s.draws + 3
      resp := ⟨true, 0, s.req.length, data⟩
      chip := some { c.closeTxn with geom := some s.geom, out := data }
      trace := s.trace ++ [⟨⟨.csBegin, .tx, 8⟩, [readByte], .ok, []⟩,
        ⟨⟨.csNone, .tx, 8 * s.geom.aw.toNat⟩, latchedBytes s, .ok, []⟩,
        ⟨⟨.csEnd, .rx, 8 * s.req.length.toNat⟩, [], .ok, data⟩] } := by
  intro data
  have hrun := run_cmd_addr_ok hs hc hfit hw hf (ha.drop 0 (by decide) rfl)
  have hdata := step_data_read_ok (run_keepsStateInv hs hrun) rfl (chipFits_of_geom rfl rfl) hw (ha.drop 2 le_rfl rfl)
    rfl hop rfl
  rw [run_add 1 hrun, run_succ _ hdata, run_zero]
  simp [complete, phaseDone, takeBusAnswer, csAfter, framingEnds, Status.code, Chip.bytes, Chip.byte, Chip.closeTxn,
    Chip.openTxn, commandByte, hop, data, ← List.drop_one, Nat.add_assoc]

/-- The phases of a WRITE or ERASE: its data stand in the array from the offset on, and the latch is cleared (R120, R152). -/
theorem run_store_phases_ok (hf : s.fsm = .wren) (ha : AnswersOk 4 s) :
    Sys2Proof.core.run 4 s = .next { s with
      fsm := .idle, csActive := false, outstanding := false, busAnswers := s.busAnswers.drop 4, draws := s.draws + 4
      resp := ⟨true, 0, s.req.length, []⟩
      chip := some { c.closeTxn with
        geom := some s.geom, array := Memory.writeBytes c.array s.req.offset.toNat s.req.data, wel := false }
      trace := s.trace ++ [⟨⟨.csBeginEnd, .tx, 8⟩, [wrenByte], .ok, []⟩, ⟨⟨.csBegin, .tx, 8⟩, [writeByte], .ok, []⟩,
        ⟨⟨.csNone, .tx, 8 * s.geom.aw.toNat⟩, latchedBytes s, .ok, []⟩,
        ⟨⟨.csEnd, .tx, 8 * s.req.length.toNat⟩, s.req.data, .ok, []⟩] } := by
  obtain ⟨hsync, hread, _⟩ := hs.op_of_busy (by simp [hf])
  have hcmd : commandByte s.req.op = writeByte := by cases h : s.req.op <;> simp_all [commandByte]
  have hwren := step_wren_ok hs hc hfit hw (ha.drop 0 (by decide) rfl) hf
  have hs₁ := step_keepsStateInv hs hwren
  have hrun := run_cmd_addr_ok hs₁ rfl (chipFits_of_geom rfl rfl) hw rfl (ha.drop 1 (by decide) (by simp))
  have hdata := step_data_store_ok (run_keepsStateInv hs₁ hrun) rfl (chipFits_of_geom rfl rfl) hw
    (ha.drop 3 le_rfl (by simp)) rfl (hread hf) rfl rfl
  rw [run_succ _ hwren, run_add 1 hrun, run_succ _ hdata, run_zero]
  simp [complete, goto, phaseDone, takeBusAnswer, csAfter, framingEnds, Status.code, Chip.closeTxn, Chip.openTxn, hcmd,
    latchedBytes, ← List.drop_one, Nat.add_assoc]

end

/-! ### Whole requests -/

section
variable {s : State} {c : Chip} {o l : Word32} {i : Instr} {rest : List EnvAction} (hs : StateInv s)
  (hb : s.bound = true) (hc : s.chip = some c) (hfit : ChipFits s) (hin : o.toNat + l.toNat ≤ s.geom.size.toNat)
include hs hb hc hfit hin

/-- A whole READ (R120, R150). -/
theorem run_read_request_ok (hf : s.fsm = .idle)
    (hag : s.agenda = .request (BitVec.ofNat 72 (encode (.read o l))) none :: rest) (hw : Waits rest)
    (ha : AnswersOk 3 s) :
    let data := c.bytes o.toNat l.toNat
    ∃ a address, address.length = s.geom.aw.toNat ∧ beNat address = o.toNat ∧
      Sys2Proof.core.run 4 s = .next { s with
        fsm := .idle, csActive := false, outstanding := false, busAnswers := s.busAnswers.drop 3, draws := s.draws + 3
        req := ⟨.read, o, l, []⟩, addr := a, resp := ⟨true, 0, l, data⟩, err := clearedError
        chip := some { c.closeTxn with geom := some s.geom, out := data }
        wdata := none, agenda := rest
        trace := s.trace ++ [⟨⟨.csBegin, .tx, 8⟩, [readByte], .ok, []⟩,
          ⟨⟨.csNone, .tx, 8 * s.geom.aw.toNat⟩, address, .ok, []⟩, ⟨⟨.csEnd, .rx, 8 * l.toNat⟩, [], .ok, data⟩] } := by
  obtain ⟨a, hstep⟩ := step_accepts_transfer (op := .read) (data := []) (hs.geometryInv.1 hb) hin rfl hag ⟨hf, rfl, rfl⟩
  have hs₁ := step_keepsStateInv hs hstep
  obtain ⟨hvalue, hlength, _⟩ := hs₁.latchedBytes_of_busy (by simp [firstPhase])
  exact ⟨a, _, hlength, hvalue, (run_succ 3 hstep).trans (run_read_phases_ok hs₁ hc hfit hw rfl rfl ha)⟩

/-- A whole WRITE or ERASE (R120, R152, R156). -/
theorem run_store_request_ok {op : ReqOp} {data : List Byte} {w : Option (List Byte)} (hop : firstPhase op = .wren)
    (hi : Transfers op o l i) (hag : s.agenda = .request (BitVec.ofNat 72 (encode i)) w :: rest) (hw : Waits rest)
    (hp : Presents op l data { s with wdata := w, agenda := rest }) (ha : AnswersOk 4 s) :
    ∃ a address, address.length = s.geom.aw.toNat ∧ beNat address = o.toNat ∧
      Sys2Proof.core.run 5 s = .next { s with
        fsm := .idle, csActive := false, outstanding := false, busAnswers := s.busAnswers.drop 4, draws := s.draws + 4
        req := ⟨op, o, l, data⟩, addr := a, resp := ⟨true, 0, l, []⟩, err := clearedError
        chip := some { c.closeTxn with
          geom := some s.geom, array := Memory.writeBytes c.array o.toNat data, wel := false }
        wdata := none, agenda := rest
        trace := s.trace ++ [⟨⟨.csBeginEnd, .tx, 8⟩, [wrenByte], .ok, []⟩, ⟨⟨.csBegin, .tx, 8⟩, [writeByte], .ok, []⟩,
          ⟨⟨.csNone, .tx, 8 * s.geom.aw.toNat⟩, address, .ok, []⟩, ⟨⟨.csEnd, .tx, 8 * l.toNat⟩, data, .ok, []⟩] } := by
  obtain ⟨a, hstep⟩ := step_accepts_transfer (hs.geometryInv.1 hb) hin hi hag hp
  have hs₁ := step_keepsStateInv hs hstep
  obtain ⟨hvalue, hlength, _⟩ := hs₁.latchedBytes_of_busy (by simp [hop])
  exact ⟨a, _, hlength, hvalue, (run_succ 4 hstep).trans (run_store_phases_ok hs₁ hc hfit hw hop ha)⟩

end

/-- Settles O57: the WRITE leaves its data in the array while the READ waits, and the READ then finds an idle sound block,
whatever the policy. -/
theorem readReturnsWhatWasWritten : Obligations.ReadReturnsWhatWasWritten := by
  intro s c o l data hs hfit hf hb hc hlength hin hag ha
  obtain ⟨_, _, _, _, hwrite⟩ := run_store_request_ok (op := .write) hs hb hc hfit hin rfl rfl hag trivial
    ⟨hf, rfl, hlength⟩ (ha.drop 0 (by decide) rfl)
  have hs₁ := run_keepsStateInv hs hwrite
  obtain ⟨_, _, _, _, hread⟩ := run_read_request_ok hs₁ hb rfl (chipFits_of_geom rfl rfl) hin rfl rfl trivial
    (ha.drop 4 le_rfl rfl)
  refine ⟨_, (run_add 4 hwrite).trans hread, rfl, ?_⟩
  have hstored := chip_bytes_writeBytes c o.toNat data
  rw [hlength] at hstored
  exact congrArg (Response.mk true 0 l) hstored

end Sys2Proof.Machine
end

section
/-!
The words of the request port and of the configuration port (R79, R84): each is its fields, and the instruction goes by the fields
alone. So a decoder is inverse to the encoder as soon as the fields of a word can be read back and put together again.
-/

namespace Sys2Proof

open Laws.EncodesInWidth (requestWord_lt configWord_lt)

/-! ### Field codes -/

@[simp] theorem ReqOp.code_ofCode (c : BitVec 2) : (ReqOp.ofCode c).code = c := by revert c; decide

@[simp] theorem CfgOp.code_ofCode (c : BitVec 1) : (CfgOp.ofCode c).code = c := by revert c; decide

@[simp] theorem CfgOp.ofCode_code (op : CfgOp) : CfgOp.ofCode op.code = op := by cases op <;> rfl

theorem CfgOp.ofCode_eq_unbind_iff (c : BitVec 1) : CfgOp.ofCode c = .unbind ↔ c = 1 := by revert c; decide

@[simp] theorem Variant.code_ofCode (c : BitVec 2) : (Variant.ofCode c).code = c := by revert c; decide

@[simp] theorem Variant.ofCode_code (v : Variant) : Variant.ofCode v.code = v := by cases v <;> rfl

/-! ### Request descriptors -/

/-- The instruction of a request descriptor's fields (R80, R81). -/
def requestInstr (op : ReqOp) (reserved : BitVec 6) (offset length : Word32) : Instr :=
  if reserved = 0 then
    match op with
    | .read => .read offset length
    | .write => .write offset length
    | .erase => .erase offset length
    | .sync => .sync offset length
  else .invalidRequest op reserved offset length

theorem decodeRequest_eq (d : BitVec 72) :
    decodeRequest d =
      requestInstr (.ofCode (d.extractLsb' 0 2)) (d.extractLsb' 2 6) (d.extractLsb' 8 32) (d.extractLsb' 40 32) := rfl

theorem requestInstr_of_ne_zero {r : BitVec 6} (h : r ≠ 0) (op : ReqOp) (o l : Word32) :
    requestInstr op r o l = .invalidRequest op r o l := if_neg h

theorem requestInstr_wellFormed (op : ReqOp) (r : BitVec 6) (o l : Word32) :
    (requestInstr op r o l).wellFormed = true := by
  by_cases h : r = 0
  · subst h; cases op <;> rfl
  · rw [requestInstr_of_ne_zero h]; exact bne_iff_ne.2 h

theorem encode_requestInstr (op : ReqOp) (r : BitVec 6) (o l : Word32) :
    encode (requestInstr op r o l) = requestWord op r o l := by
  by_cases h : r = 0
  · subst h; cases op <;> rfl
  · rw [requestInstr_of_ne_zero h, encode]

/-- A request descriptor's fields cover its 72 bits (R79). -/
theorem requestWord_of_fields (d : BitVec 72) :
    requestWord (.ofCode (d.extractLsb' 0 2)) (d.extractLsb' 2 6) (d.extractLsb' 8 32) (d.extractLsb' 40 32) = d.toNat := by
  have hd := d.isLt
  simp only [requestWord, ReqOp.code_ofCode, BitVec.extractLsb'_toNat, Nat.shiftRight_eq_div_pow]
  omega

theorem decode_requestWord (op : ReqOp) (r : BitVec 6) (o l : Word32) :
    decode .request (requestWord op r o l) = .ok (requestInstr op r o l) := by
  obtain ⟨hop, hr, ho, hl⟩ := requestWord_fields op r o l
  rw [decode, if_pos (requestWord_lt op r o l), decodeRequest_eq, hop, hr, ho, hl, ReqOp.ofCode_code]

/-! ### Configuration descriptors -/

/-- The instruction of a configuration descriptor's fields (R85, R86). -/
def configInstr (op : CfgOp) (variant : BitVec 2) (reserved : BitVec 5) : Instr :=
  if illegalConfig op variant reserved then .invalidConfig op variant reserved
  else
    match op with
    | .bind => .bind (.ofCode variant)
    | .unbind => .unbind

theorem decodeConfig_eq (d : BitVec 8) :
    decodeConfig d = configInstr (.ofCode (d.extractLsb' 0 1)) (d.extractLsb' 1 2) (d.extractLsb' 3 5) := rfl

theorem illegalConfig_iff (op : CfgOp) (v : BitVec 2) (r : BitVec 5) :
    illegalConfig op v r = true ↔ r ≠ 0 ∨ (op = .unbind ∧ v ≠ 0) := by
  simp [illegalConfig]

theorem configInstr_of_illegal {op : CfgOp} {v : BitVec 2} {r : BitVec 5} (h : illegalConfig op v r = true) :
    configInstr op v r = .invalidConfig op v r := if_pos h

theorem configInstr_bind (v : BitVec 2) : configInstr .bind v 0 = .bind (.ofCode v) := rfl

theorem configInstr_unbind : configInstr .unbind 0 0 = .unbind := rfl

/-- A configuration descriptor is illegal, a BIND, or the one UNBIND (R84, R86). -/
theorem config_cases (op : CfgOp) (v : BitVec 2) (r : BitVec 5) :
    illegalConfig op v r = true ∨ (op = .bind ∧ r = 0) ∨ (op = .unbind ∧ v = 0 ∧ r = 0) := by
  rw [illegalConfig_iff]
  cases op <;> simp only [reduceCtorEq] <;> tauto

theorem configInstr_wellFormed (op : CfgOp) (v : BitVec 2) (r : BitVec 5) : (configInstr op v r).wellFormed = true := by
  rcases config_cases op v r with h | ⟨rfl, rfl⟩ | ⟨rfl, rfl, rfl⟩
  · rw [configInstr_of_illegal h]; exact h
  · rfl
  · rfl

theorem encode_configInstr (op : CfgOp) (v : BitVec 2) (r : BitVec 5) :
    encode (configInstr op v r) = configWord op v r := by
  rcases config_cases op v r with h | ⟨rfl, rfl⟩ | ⟨rfl, rfl, rfl⟩
  · rw [configInstr_of_illegal h, encode]
  · rw [configInstr_bind, encode, Variant.code_ofCode]
  · rfl

/-- A configuration descriptor's fields cover its 8 bits (R84). -/
theorem configWord_of_fields (d : BitVec 8) :
    configWord (.ofCode (d.extractLsb' 0 1)) (d.extractLsb' 1 2) (d.extractLsb' 3 5) = d.toNat := by
  have hd := d.isLt
  simp only [configWord, CfgOp.code_ofCode, BitVec.extractLsb'_toNat, Nat.shiftRight_eq_div_pow]
  omega

/-- The fields of a configuration descriptor's word (R84). -/
theorem configWord_fields (op : CfgOp) (v : BitVec 2) (r : BitVec 5) :
    (BitVec.ofNat 8 (configWord op v r)).extractLsb' 0 1 = op.code ∧
      (BitVec.ofNat 8 (configWord op v r)).extractLsb' 1 2 = v ∧
      (BitVec.ofNat 8 (configWord op v r)).extractLsb' 3 5 = r := by
  refine ⟨?_, ?_, ?_⟩ <;> apply BitVec.eq_of_toNat_eq <;>
    simp only [BitVec.extractLsb'_toNat, BitVec.toNat_ofNat, configWord, Nat.shiftRight_eq_div_pow] <;> omega

theorem decode_configWord (op : CfgOp) (v : BitVec 2) (r : BitVec 5) :
    decode .config (configWord op v r) = .ok (configInstr op v r) := by
  obtain ⟨hop, hv, hr⟩ := configWord_fields op v r
  rw [decode, if_pos (show _ < 256 from configWord_lt op v r), decodeConfig_eq, hop, hv, hr, CfgOp.ofCode_code]

end Sys2Proof
end

section
/-!
The decoders and the encoder agree (R71, R72, R76, R79, R84, R87, R91, R92).
-/

namespace Sys2Proof

/-! ### Decoding what was encoded -/

/-- A phase of whole bytes decodes from its instruction's word (R76, R87). -/
theorem decode_phase_encode {d : PhaseDesc} {i : Instr} (hb : d.bits % 8 = 0) (h : d.instr = .ok i) :
    decode .phase (encode i) = .ok i := by
  rw [PhaseDesc.encode_of_instr h]
  exact decodePhase_word hb h

theorem validBits_mod {n : Nat} (h : validBits n = true) : n % 8 = 0 := by
  simp only [validBits, Bool.and_eq_true, beq_iff_eq] at h
  obtain ⟨hmod, _⟩ := h
  exact hmod

/-- Settles O5: a request's and a configuration operation's word is read back by its fields, a command byte is one of three, and a
phase's word is that of its descriptor. -/
theorem decodeInvertsEncode : Obligations.DecodeInvertsEncode := by
  intro i hwf
  cases i with
  | read o l => exact decode_requestWord .read 0 o l
  | write o l => exact decode_requestWord .write 0 o l
  | erase o l | zfill o l => exact decode_requestWord .erase 0 o l
  | sync o l => exact decode_requestWord .sync 0 o l
  | invalidRequest op r o l =>
    have hr : r ≠ 0 := by simpa [Instr.wellFormed] using hwf
    exact (decode_requestWord op r o l).trans (congrArg _ (requestInstr_of_ne_zero hr op o l))
  | bind v => exact (decode_configWord .bind v.code 0).trans (by rw [configInstr_bind, Variant.ofCode_code]; rfl)
  | unbind => exact decode_configWord .unbind 0 0
  | invalidConfig op v r => exact (decode_configWord op v r).trans (congrArg _ (configInstr_of_illegal hwf))
  | cmdRead | cmdWrite | cmdWren => rfl
  | phWren => exact decode_phase_encode (d := ⟨.csBeginEnd, .tx, 8⟩) rfl rfl
  | phCmd => exact decode_phase_encode (d := ⟨.csBegin, .tx, 8⟩) rfl rfl
  | phAddr2 => exact decode_phase_encode (d := ⟨.csNone, .tx, 16⟩) rfl rfl
  | phAddr3 => exact decode_phase_encode (d := ⟨.csNone, .tx, 24⟩) rfl rfl
  | phDataRx n => exact decode_phase_encode (d := ⟨.csEnd, .rx, n⟩) (validBits_mod hwf) rfl
  | phDataTx n => exact decode_phase_encode (d := ⟨.csEnd, .tx, n⟩) (validBits_mod hwf) rfl
  | phRelease => exact decode_phase_encode (d := ⟨.csEnd, .noData, 0⟩) rfl rfl

/-! ### Encoding what was decoded -/

/-- Settles O6: the instruction of the fields is well-formed, and its word puts the fields together again. -/
theorem everyDescriptorDecodes : Obligations.EveryDescriptorDecodes := by
  refine ⟨fun d => ⟨requestInstr_wellFormed _ _ _ _, Machine.decodeRequest_port d, ?_⟩,
    fun d => ⟨configInstr_wellFormed _ _ _, Machine.decodeConfig_port d, ?_⟩⟩
  · rw [decodeRequest_eq, encode_requestInstr, requestWord_of_fields]
  · rw [decodeConfig_eq, encode_configInstr, configWord_of_fields]

/-! ### Words that are no instruction -/

theorem decode_command (b : Byte) : decode .command b.toNat = decodeCommand b := by
  rw [decode, if_pos b.isLt, BitVec.ofNat_toNat, BitVec.setWidth_eq]

theorem decodeCommand_reserved {b : Byte} (hr : b ≠ readByte) (hw : b ≠ writeByte) (he : b ≠ wrenByte) :
    decodeCommand b = .error .notACommand := by
  rw [decodeCommand, if_neg hr, if_neg hw, if_neg he]

theorem decodePhase_ok {w : Nat} {i : Instr} (h : decodePhase w = .ok i) :
    w / 4 % 4 ≠ 3 ∧ w / 16 % 16 = 0 ∧ w / 256 % 8 = 0 := by
  unfold decodePhase at h
  split at h
  · cases h
  next hdir =>
    split at h
    · cases h
    next hreserved =>
      split at h
      · cases h
      next hbytes => exact ⟨hdir, not_not.1 hreserved, not_not.1 hbytes⟩

/-- Settles O8: a byte that is none of the three commands falls through the decoder, and a decoded phase descriptor breaks none
of the three rules. -/
theorem reservedWordsAreRejected : Obligations.ReservedWordsAreRejected := by
  refine ⟨fun b hr hw he i h => ?_, fun d hd i h => ?_⟩
  · rw [decode_command, decodeCommand_reserved hr hw he] at h
    cases h
  · obtain ⟨hdir, hreserved, hbytes⟩ := decodePhase_ok h
    simp only [← BitVec.toNat_inj, ne_eq, BitVec.extractLsb'_toNat, Nat.shiftRight_eq_div_pow] at hd
    rcases hd with hd | hd | hd
    · exact hdir hd
    · exact hd hreserved
    · exact hd hbytes

/-! ### Sample words -/

/-- Settles O7: the decoders are run on each word. -/
theorem sampleWordsDecode : Obligations.SampleWordsDecode :=
  ⟨rfl, rfl, rfl, rfl, rfl, rfl, rfl, rfl, rfl, rfl, rfl, rfl, rfl, rfl, rfl, rfl, rfl, rfl⟩

end Sys2Proof
end

section
/-!
The phase map at a sound busy state (R87, R141): the invariant leaves no row of it out, so the phase port carries one word, and it
decodes to the row's instruction.
-/

namespace Sys2Proof.Machine

/-- A phase of whole bytes stands on the phase port as its instruction's word, which decodes to it (R76, R87). -/
theorem phaseWord_decodes {s : State} {d : PhaseDesc} {i : Instr} (hd : phaseDesc s = some d) (hb : d.bits % 8 = 0)
    (hi : d.instr = .ok i) : phaseWord s = some (encode i) ∧ decode .phase (encode i) = .ok i := by
  refine ⟨?_, decode_phase_encode hb hi⟩
  rw [phaseWord, hd, PhaseDesc.encode_of_instr hi]
  rfl

section
variable {s : State} (hs : StateInv s)
include hs

theorem StateInv.phaseDesc_wren (hf : s.fsm = .wren) : phaseDesc s = some ⟨.csBeginEnd, .tx, 8⟩ := by
  obtain ⟨hsync, hread, _⟩ := hs.op_of_busy (by simp [hf])
  cases hop : s.req.op
  case read => exact absurd hop (hread hf)
  case sync => exact absurd hop hsync
  all_goals simp [phaseDesc, hf, hop]

theorem StateInv.phaseDesc_cmd (hf : s.fsm = .cmd) : phaseDesc s = some ⟨.csBegin, .tx, 8⟩ := by
  obtain ⟨hsync, _⟩ := hs.op_of_busy (by simp [hf])
  cases hop : s.req.op
  case sync => exact absurd hop hsync
  all_goals simp [phaseDesc, hf, hop]

/-- ADDR moves the bits of the bound width (R144). -/
theorem StateInv.phaseDesc_addr (hf : s.fsm = .addr) :
    s.geom.aw = 2 ∧ phaseDesc s = some ⟨.csNone, .tx, 16⟩ ∨ s.geom.aw = 3 ∧ phaseDesc s = some ⟨.csNone, .tx, 24⟩ := by
  have hbusy : s.fsm ≠ .idle := by simp [hf]
  obtain ⟨hsync, _⟩ := hs.op_of_busy hbusy
  have hd : phaseDesc s = phaseDesc.addrDesc s := by
    cases hop : s.req.op
    case sync => exact absurd hop hsync
    all_goals simp [phaseDesc, hf, hop]
  obtain ⟨_, _, he, ha⟩ := hs.addr_of_busy hbusy
  rcases encodeAddr_ok he with ⟨haw, _, rfl⟩ | ⟨haw, _, rfl⟩
  · exact .inl ⟨haw, by simp [hd, phaseDesc.addrDesc, haw, ha, latchOf]⟩
  · exact .inr ⟨haw, by simp [hd, phaseDesc.addrDesc, haw, ha, latchOf]⟩

omit hs in
theorem phaseDesc_data_read (hf : s.fsm = .data) (hop : s.req.op = .read) :
    phaseDesc s = some ⟨.csEnd, .rx, 8 * s.req.length.toNat⟩ := by simp [phaseDesc, hf, hop]

theorem StateInv.phaseDesc_data_store (hf : s.fsm = .data) (hread : s.req.op ≠ .read) :
    phaseDesc s = some ⟨.csEnd, .tx, 8 * s.req.length.toNat⟩ := by
  obtain ⟨hsync, _⟩ := hs.op_of_busy (by simp [hf])
  cases hop : s.req.op
  case read => exact absurd hop hread
  case sync => exact absurd hop hsync
  all_goals simp [phaseDesc, hf, hop]

end

theorem phaseDesc_abort {s : State} (hf : s.fsm = .abort) : phaseDesc s = some ⟨.csEnd, .noData, 0⟩ := by
  simp [phaseDesc, hf]

/-- Settles O12: the row of each busy state, which has no reserved code. -/
theorem thePhaseMapGivesOneInstruction : Obligations.ThePhaseMapGivesOneInstruction := by
  intro s hs hbusy
  obtain ⟨⟨h6, h7, _⟩, _⟩ := id hs
  cases hf : s.fsm
  case idle => exact absurd hf hbusy
  case reserved6 => exact absurd hf h6
  case reserved7 => exact absurd hf h7
  case wren =>
    obtain ⟨hw, hi⟩ := phaseWord_decodes (hs.phaseDesc_wren hf) rfl rfl
    exact ⟨_, _, hw, hi, by simp⟩
  case cmd =>
    obtain ⟨hw, hi⟩ := phaseWord_decodes (hs.phaseDesc_cmd hf) rfl rfl
    exact ⟨_, _, hw, hi, by simp⟩
  case addr =>
    rcases hs.phaseDesc_addr hf with ⟨haw, hd⟩ | ⟨haw, hd⟩
    · obtain ⟨hw, hi⟩ := phaseWord_decodes hd rfl rfl
      exact ⟨_, _, hw, hi, by simp [haw]⟩
    · obtain ⟨hw, hi⟩ := phaseWord_decodes hd rfl rfl
      exact ⟨_, _, hw, hi, by simp [haw]⟩
  case data =>
    by_cases hop : s.req.op = .read
    · obtain ⟨hw, hi⟩ := phaseWord_decodes (phaseDesc_data_read hf hop) (Nat.mul_mod_right _ _) rfl
      exact ⟨_, _, hw, hi, by simp [hop]⟩
    · obtain ⟨hw, hi⟩ := phaseWord_decodes (hs.phaseDesc_data_store hf hop) (Nat.mul_mod_right _ _) rfl
      exact ⟨_, _, hw, hi, by simp [hop]⟩
  case abort =>
    obtain ⟨hw, hi⟩ := phaseWord_decodes (phaseDesc_abort hf) rfl rfl
    exact ⟨_, _, hw, hi, by simp⟩

end Sys2Proof.Machine
end

section
/-!
Descriptors that are INVALID_REQUEST (R81, R86): the instruction they decode to, and the state in which it completes.
-/

namespace Sys2Proof.Machine

/-- A request with a reserved bit set that the port takes is accepted and completed (R81, R132). -/
theorem exec_invalidRequest {op : ReqOp} {o l : Word32} {s : State} (r : BitVec 6) (hp : portRefusal op l s = none) :
    exec (.invalidRequest op r o l) s = .next (raise .invalidRequest none 0 (acceptRequest op o l s)) := by
  simp [exec, execInvalidRequest, hp]

/-- An illegal configuration operation is accepted and completed in IDLE (R86, R171). -/
theorem exec_invalidConfig {s : State} (op : CfgOp) (v : BitVec 2) (r : BitVec 5) (hf : s.fsm = .idle) :
    exec (.invalidConfig op v r) s = .next (raise .invalidRequest (some op) 0 (acceptConfig s)) := by
  simp [exec, execInvalidConfig, State.busy, hf]

/-- The state of a request completed with INVALID_REQUEST (R131, R215): the latches, the response and the error record. -/
theorem raise_invalidRequest_acceptRequest {op : ReqOp} {o l : Word32} {s : State} (hf : s.fsm = .idle) :
    raise .invalidRequest none 0 (acceptRequest op o l s) = { s with
      req := ⟨op, o, l, reqData op l s.wdata⟩
      resp := ⟨true, 6, 0, []⟩
      err := ⟨false, op.code, 0, 0, o, l⟩
      wdata := none } := by
  simp only [raise, complete, ← hf]
  rfl

/-- The state of a configuration operation completed with INVALID_REQUEST (R171, R215): the response and the error record. -/
theorem raise_invalidRequest_acceptConfig {s : State} (op : CfgOp) (hf : s.fsm = .idle) :
    raise .invalidRequest (some op) 0 (acceptConfig s) = { s with
      resp := ⟨true, 6, 0, []⟩
      err := ⟨true, op.code.setWidth 2, 0, 0, 0, 0⟩ } := by
  simp only [raise, complete, ← hf]
  rfl

/-- Settles O23: the descriptor is an INVALID_REQUEST by its reserved bits, and a well-presented one is taken. -/
theorem reservedRequestBitsAreInvalid : Obligations.ReservedRequestBitsAreInvalid := by
  intro s d data hr hp
  have hi := (decodeRequest_eq d).trans (requestInstr_of_ne_zero hr _ _ _)
  obtain ⟨htaken, hdata⟩ := hp.taken
  refine ⟨⟨_, _, _, _, hi⟩, ?_⟩
  rw [hi, exec_invalidRequest _ htaken, raise_invalidRequest_acceptRequest hp.1, hdata, ReqOp.code_ofCode]

/-- Settles O31: the descriptor's fields are illegal. -/
theorem illegalConfigurationIsInvalid : Obligations.IllegalConfigurationIsInvalid := by
  intro s d hf hd
  have hillegal := (illegalConfig_iff (.ofCode (d.extractLsb' 0 1)) (d.extractLsb' 1 2) (d.extractLsb' 3 5)).2
    (by rwa [CfgOp.ofCode_eq_unbind_iff])
  have hi := (decodeConfig_eq d).trans (configInstr_of_illegal hillegal)
  refine ⟨⟨_, _, _, hi⟩, ?_⟩
  rw [hi, exec_invalidConfig _ _ _ hf, raise_invalidRequest_acceptConfig _ hf, CfgOp.code_ofCode]

end Sys2Proof.Machine
end

section
/-!
The address encoder (R101, R102) and what a request meets when its width is not supported (R131, R212, R215): the transfer ends
in the encoder's failure, and the completed request's state is spelled out.
-/

namespace Sys2Proof.Machine

/-! ### The encoder -/

/-- The encoder takes the widths 2 and 3 (R101). -/
theorem exists_encodeAddr_ok (o : Word32) {w : Byte} (hw : w = 2 ∨ w = 3) :
    ∃ bytes bits, encodeAddr o w = .ok (bytes, bits) := by
  rcases hw with rfl | rfl
  · exact ⟨_, _, encodeAddr_two o⟩
  · exact ⟨_, _, encodeAddr_three o⟩

/-- Settles O16: the widths 2 and 3 are taken, what is taken has the truncated offset's value, and no other width is taken. -/
theorem encoderTruncatesBigEndian : Obligations.EncoderTruncatesBigEndian := by
  intro o w
  refine ⟨fun hw => ?_, encodeAddr_other o⟩
  obtain ⟨bytes, bits, he⟩ := exists_encodeAddr_ok o hw
  obtain ⟨hvalue, hlength, hbits⟩ := encodeAddr_value he
  exact ⟨bytes, bits, he, hlength, hbits, hvalue⟩

/-- Settles O17: the encoder is run on each offset of the table; the other widths fail whatever the offset. -/
theorem encoderExamples : Obligations.EncoderExamples := by
  refine ⟨rfl, rfl, rfl, rfl, rfl, rfl, rfl, rfl, rfl, rfl, rfl, rfl, fun o => ⟨?_, ?_, ?_, ?_⟩⟩
  all_goals exact encodeAddr_other o (by decide) (by decide)

/-! ### The unsupported width -/

/-- A transfer whose width the encoder does not take ends in that failure (R132, R212). -/
theorem startTransfer_of_unsupported {s : State} (h2 : s.geom.aw ≠ 2) (h3 : s.geom.aw ≠ 3) :
    startTransfer s = raise .unsupportedAddressWidth none s.geom.aw s := by
  simp [startTransfer, encodeAddr_other _ h2 h3]

/-- The state of a request that its acceptance completes with an error (R131, R215): the latches, the response and the error
record; ERR_WIDTH holds a width for UNSUPPORTED_ADDRESS_WIDTH alone. -/
theorem raise_acceptRequest (e : Status) (w : Byte) {op : ReqOp} {o l : Word32} {s : State} (hf : s.fsm = .idle) :
    raise e none w (acceptRequest op o l s) = { s with
      req := ⟨op, o, l, reqData op l s.wdata⟩
      resp := ⟨true, e.code, 0, []⟩
      err := ⟨false, op.code, 0, if e = .unsupportedAddressWidth then w else 0, o, l⟩
      wdata := none } := by
  simp only [raise, complete, ← hf]
  rfl

/-- Settles O24: a presented transfer is accepted and started, and the start ends in the encoder's failure. -/
theorem unsupportedWidthIssuesNoPhase : Obligations.UnsupportedWidthIssuesNoPhase := by
  intro s op o l data i hi hp h2 h3
  obtain ⟨htaken, hdata⟩ := hp.taken
  have hstart := startTransfer_of_unsupported (s := acceptRequest op o l s) h2 h3
  refine ⟨encodeAddr_other o h2 h3, ?_⟩
  rw [exec_transfers hi htaken, hstart, raise_acceptRequest _ _ hp.1, hdata]
  rfl

end Sys2Proof.Machine
end

section
/-!
The framing of a phase (R113 to R117, R124): the bus engine takes a phase only with a framing that is legal for CS_ACTIVE, so the
framing says what CS_ACTIVE was before the phase as well as what it is after it.
-/

namespace Sys2Proof.Machine

/-- The bus engine has a meaning for a phase of a defined direction, with a legal framing, and with the payload that the direction
asks for. -/
theorem phaseFault_none_iff (d : PhaseDesc) (tx : List Byte) (s : State) :
    phaseFault d tx s = none ↔
      d.dir ≠ .reserved ∧ framingLegal d.framing s.csActive = true ∧ tx.length = if d.dir = .tx then d.bits / 8 else 0 := by
  unfold phaseFault
  split_ifs <;> simp_all

/-- A legal framing begins a transaction exactly when none is open (R124). -/
theorem csActive_of_framingLegal {f : Framing} {cs : Bool} (h : framingLegal f cs = true) : cs = !framingBegins f := by
  cases cs <;> cases f <;> simp_all [framingLegal, framingBegins]

/-- CS_ACTIVE before and after an answered phase, by the framing of the phase's word (R115, R124). -/
theorem exec_phase_csActive {i : Instr} {s t : State} {res : PhaseResult} {given : List Byte} (hp : i.port = .phase)
    (ha : nextBusAnswer s = .answered res given) (he : exec i s = .next t) :
    ∃ f : Framing, encode i % 4 = f.code ∧ s.csActive = !framingBegins f ∧ t.csActive = csAfter f := by
  obtain ⟨d, tx, go, hexec, hcode, hgo⟩ := exec_phase i s hp
  obtain ⟨_, hissue⟩ := inTurn_next (hexec ▸ he)
  obtain ⟨hfault, _, ⟨hsilent, _⟩ | ⟨res', given', chip, _, _, rfl⟩⟩ := issue_next hissue
  · rw [ha] at hsilent
    cases hsilent
  · obtain ⟨_, hlegal, _⟩ := (phaseFault_none_iff d tx s).1 hfault
    obtain ⟨_, _, _, hframe⟩ := after_frame
      (phaseDone d tx res' (receivedBytes s.draws d res' given' s.chip chip) chip s) res'
      (receivedBytes s.draws d res' given' s.chip chip) go hgo
    exact ⟨d.framing, hcode, csActive_of_framingLegal hlegal, by rw [hframe]; rfl⟩

/-- Settles O42: the four rows of R115, read off each framing's Begin and End flags. -/
theorem chipSelectFollowsTheFraming : Obligations.ChipSelectFollowsTheFraming := by
  intro i s t res given rest hp ha he
  obtain ⟨f, hcode, hbefore, hafter⟩ := exec_phase_csActive (given := given) hp (by rw [nextBusAnswer, ha]; rfl) he
  rw [hcode, Framing.ofCode_code, State.csWire, State.csWire, hbefore, hafter]
  cases f <;> decide

end Sys2Proof.Machine
end

section
/-!
A sound busy block under any answers of the bus engine (R123, R141 to R147): the phase that it issues has a meaning for the bus
engine and for the chip, silence leaves the block where it is, and each answer brings it one phase nearer to IDLE. Under weak
fairness it therefore ends.
-/

namespace Sys2Proof.Machine

/-! ### The phase of a busy state -/

/-- What the block does with the answer, by the state that issued the phase (R142 to R146). -/
inductive AnswerRule : Fsm → (PhaseResult → List Byte → State → State) → Prop
  | wren : AnswerRule .wren afterWren
  | cmd : AnswerRule .cmd afterCmd
  | addr : AnswerRule .addr afterAddr
  | dataRx : AnswerRule .data afterDataRx
  | dataTx : AnswerRule .data afterDataTx
  | release : AnswerRule .abort afterRelease

/-- The step of a busy block is this phase, and both the bus engine and the chip, when one is attached, have a meaning for it. -/
structure Issues (s : State) (d : PhaseDesc) (tx : List Byte) (go : PhaseResult → List Byte → State → State) : Prop where
  rule : AnswerRule s.fsm go
  step_eq : step s = issue d tx go s
  no_fault : phaseFault d tx s = none
  chip_ok : ∀ c ∈ s.chip, ∃ c', chipPhase s.geom s.draws d tx .ok { c with geom := some s.geom } = .ok c'

/-- The chip has a meaning for a whole READ or WRITE whose data lie in the array (R192, R201). -/
theorem exists_chipAct_ok {g : Geometry} {c : Chip} {op : ReqOp} {address data : List Byte} (k : Nat)
    (htxn : c.txn = commandByte op :: (address ++ data)) (hlength : address.length = g.aw.toNat)
    (hclocked : dataInArray g (beNat address) c.clocked = true)
    (hdata : dataInArray g (beNat address) data.length = true) : ∃ c', chipAct g k c = .ok c' := by
  have hsplit := splitAddress_append (data := data) hlength
  cases op <;>
    simp [chipAct, htxn, commandByte, chipRead, chipWrite, hsplit, hclocked, hdata, readByte, writeByte]

/-- A data phase inside the device ends a transaction that the chip can act on (R145, R201). -/
theorem StateInv.exists_chipPhase_data {s : State} {c : Chip} {dir : Direction} {n : Nat} {tx : List Byte}
    (hs : StateInv s) (hf : s.fsm = .data) (hc : c ∈ s.chip) (hdir : dir ≠ .noData) (hn : n / 8 ≤ s.req.length.toNat)
    (htx : tx.length ≤ s.req.length.toNat) :
    ∃ c', chipPhase s.geom s.draws ⟨.csEnd, dir, n⟩ tx .ok { c with geom := some s.geom } = .ok c' := by
  have hbusy : s.fsm ≠ .idle := by simp [hf]
  obtain ⟨hvalue, hlength, _⟩ := hs.latchedBytes_of_busy hbusy
  have hin : ∀ k ≤ s.req.length.toNat, dataInArray s.geom (beNat (latchedBytes s)) k = true := by
    intro k hk
    have hbounds := hs.inBounds_of_busy hbusy
    simp [dataInArray, hvalue]
    omega
  by_cases hh : c.health = .clean
  · have htxn := hs.chip_txn_of_data hf hc hh
    have hclocked : (if dir = .rx then n / 8 else 0) ≤ s.req.length.toNat := by split <;> omega
    simpa [chipPhase, hdir, hh] using
      exists_chipAct_ok (op := s.req.op) (c := { c with
        geom := some s.geom, txn := c.txn ++ tx, clocked := if dir = .rx then n / 8 else 0 }) s.draws
        (by simp [htxn]) hlength (hin _ hclocked) (hin _ htx)
  · simp [chipPhase, hh]

section
variable {s : State} (hs : StateInv s) (hw : Waits s.agenda)
include hs hw

omit hs in
/-- The release phase, whatever the request (R146). -/
theorem step_release (hf : s.fsm = .abort) : step s = issue ⟨.csEnd, .noData, 0⟩ [] afterRelease s :=
  step_of_phaseDesc (d := ⟨.csEnd, .noData, 0⟩) hw (by simp [phaseDesc, hf]) rfl rfl rfl

theorem issues_wren (hf : s.fsm = .wren) : Issues s ⟨.csBeginEnd, .tx, 8⟩ [wrenByte] afterWren where
  rule := hf ▸ .wren
  step_eq := step_wren hs hw hf
  no_fault := by simp [phaseFault_none_iff, hs.csActive_of_unselected (.inl hf), framingLegal, framingBegins]
  chip_ok _ _ := ⟨_, rfl⟩

theorem issues_cmd (hf : s.fsm = .cmd) : Issues s ⟨.csBegin, .tx, 8⟩ [commandByte s.req.op] afterCmd where
  rule := hf ▸ .cmd
  step_eq := step_cmd hs hw hf
  no_fault := by simp [phaseFault_none_iff, hs.csActive_of_unselected (.inr hf), framingLegal, framingBegins]
  chip_ok _ _ := ⟨_, rfl⟩

theorem issues_addr (hf : s.fsm = .addr) :
    Issues s ⟨.csNone, .tx, 8 * s.geom.aw.toNat⟩ (latchedBytes s) afterAddr where
  rule := hf ▸ .addr
  step_eq := step_addr hs hw hf
  no_fault := by
    obtain ⟨_, hlength, _⟩ := hs.latchedBytes_of_busy (by simp [hf])
    simp [phaseFault_none_iff, hs.csActive_of_selected (.inl hf), framingLegal, framingBegins, hlength]
  chip_ok _ _ := ⟨_, rfl⟩

theorem issues_data_read (hf : s.fsm = .data) (hop : s.req.op = .read) :
    Issues s ⟨.csEnd, .rx, 8 * s.req.length.toNat⟩ [] afterDataRx where
  rule := hf ▸ .dataRx
  step_eq := step_data_read hw hf hop
  no_fault := by simp [phaseFault_none_iff, hs.csActive_of_selected (.inr (.inl hf)), framingLegal, framingBegins]
  chip_ok _ hc := hs.exists_chipPhase_data hf hc (by decide) (by omega) (by simp)

theorem issues_data_store (hf : s.fsm = .data) (hop : s.req.op ≠ .read) :
    Issues s ⟨.csEnd, .tx, 8 * s.req.length.toNat⟩ s.req.data afterDataTx := by
  obtain ⟨hsync, _, hdata⟩ := hs.op_of_busy (by simp [hf])
  have hcount : s.req.data.length = s.req.length.toNat := by
    rw [hdata]; cases h : s.req.op <;> simp_all [dataCount]
  exact {
    rule := hf ▸ .dataTx
    step_eq := step_data_store hs hw hf hop
    no_fault := by
      simp [phaseFault_none_iff, hs.csActive_of_selected (.inr (.inl hf)), framingLegal, framingBegins, hcount]
    chip_ok := fun _ hc => hs.exists_chipPhase_data hf hc (by decide) (by omega) hcount.le }

theorem issues_release (hf : s.fsm = .abort) : Issues s ⟨.csEnd, .noData, 0⟩ [] afterRelease where
  rule := hf ▸ .release
  step_eq := step_release hw hf
  no_fault := by simp [phaseFault_none_iff, hs.csActive_of_selected (.inr (.inr hf)), framingLegal, framingBegins]
  chip_ok _ _ := ⟨_, rfl⟩

/-- Every sound busy state issues a phase (R87, R141). -/
theorem exists_issues (hf : s.fsm ≠ .idle) : ∃ d tx go, Issues s d tx go := by
  obtain ⟨⟨h6, h7, _⟩, _⟩ := id hs
  cases h : s.fsm with
  | idle => exact absurd h hf
  | wren => exact ⟨_, _, _, issues_wren hs hw h⟩
  | cmd => exact ⟨_, _, _, issues_cmd hs hw h⟩
  | addr => exact ⟨_, _, _, issues_addr hs hw h⟩
  | data =>
    by_cases hop : s.req.op = .read
    · exact ⟨_, _, _, issues_data_read hs hw h hop⟩
    · exact ⟨_, _, _, issues_data_store hs hw h hop⟩
  | abort => exact ⟨_, _, _, issues_release hs hw h⟩
  | reserved6 => exact absurd h h6
  | reserved7 => exact absurd h h7

end

/-! ### The bus engine's answer -/

theorem chipGeometry_of_fits {s : State} {c : Chip} (hfit : ChipFits s) (hc : c ∈ s.chip) : chipGeometry s c = s.geom := by
  rcases hfit c hc with h | h <;> simp [chipGeometry, h]

theorem chipMismatch_of_fits {s : State} (hfit : ChipFits s) : chipMismatch s = false := by
  unfold chipMismatch
  split
  · rfl
  next c hc => simp [chipGeometry_of_fits hfit hc]

/-- Where the chip has a meaning for a phase answered OK, it has one for either answer (R197). -/
theorem Issues.exists_chipAfter {s : State} {d : PhaseDesc} {tx : List Byte}
    {go : PhaseResult → List Byte → State → State} (h : Issues s d tx go) (hfit : ChipFits s) (res : PhaseResult) :
    ∃ chip, chipAfter d tx res s = .ok chip := by
  cases hc : s.chip with
  | none => exact ⟨none, by simp [chipAfter, hc]⟩
  | some c =>
    obtain ⟨c', hc'⟩ : ∃ c', chipPhase s.geom s.draws d tx res { c with geom := some s.geom } = .ok c' := by
      cases res
      · exact h.chip_ok c hc
      · exact chipPhase_busError _ _ _ _ _
    exact ⟨some c', by simp [chipAfter, hc, chipGeometry_of_fits hfit hc, hc']⟩

/-- Silence leaves the block waiting (R123). -/
theorem step_of_silent {s : State} (hs : StateInv s) (hfit : ChipFits s) (hw : Waits s.agenda) (hf : s.fsm ≠ .idle)
    (ha : nextBusAnswer s = .silent) : step s = .next (waitForBus s) := by
  obtain ⟨d, tx, go, h⟩ := exists_issues hs hw hf
  simp [h.step_eq, issue, h.no_fault, chipMismatch_of_fits hfit, ha]

/-- Settles O41: the phase that the block issues is taken, and silence leaves all but its answer and the count of draws. -/
theorem silentBusLeavesTheBlockWaiting : Obligations.SilentBusLeavesTheBlockWaiting := by
  intro s rest hs hfit hf hag ha
  rw [step_of_silent hs hfit (by simp [hag, Waits]) hf (by simp [nextBusAnswer, ha])]
  simp [waitForBus, takeBusAnswer, ha]

/-! ### Progress -/

/-- The most phases that may still be answered before the block is in IDLE (R151, R153). -/
def phasesLeft : Fsm → Nat
  | .idle => 0
  | .wren => 4
  | .cmd => 3
  | .addr => 2
  | .data => 1
  | .abort => 1
  | .reserved6 => 0
  | .reserved7 => 0

theorem phasesLeft_le (f : Fsm) : phasesLeft f ≤ 4 := by cases f <;> decide

/-- The request has ended with a response, or it goes on with fewer phases left than from `f`. -/
def Advances (f : Fsm) (t : State) : Prop :=
  (t.fsm = .idle ∧ t.resp.valid = true) ∨ (t.fsm ≠ .idle ∧ phasesLeft t.fsm < phasesLeft f)

theorem AnswerRule.phasesLeft_pos {f : Fsm} {go : PhaseResult → List Byte → State → State} (h : AnswerRule f go) :
    0 < phasesLeft f := by
  cases h <;> decide

theorem AnswerRule.eq_after {f : Fsm} {go : PhaseResult → List Byte → State → State} (h : AnswerRule f go) :
    go = afterWren ∨ go = afterCmd ∨ go = afterAddr ∨ go = afterDataRx ∨ go = afterDataTx ∨ go = afterRelease := by
  cases h <;> simp

/-- Every answer, under either policy, brings the request nearer to its end (R142 to R147). -/
theorem AnswerRule.advances {f : Fsm} {go : PhaseResult → List Byte → State → State} (h : AnswerRule f go)
    (res : PhaseResult) (rx : List Byte) (u : State) : Advances f (go res rx u) := by
  cases h with
  | wren =>
    unfold afterWren
    split
    · exact .inr ⟨by simp, by simp [phasesLeft]⟩
    · exact .inl ⟨rfl, rfl⟩
  | cmd | addr =>
    right
    simp only [afterCmd, afterAddr]
    split <;> simp [phasesLeft]
  | dataRx | dataTx => cases res <;> exact .inl ⟨rfl, rfl⟩
  | release => exact .inl ⟨rfl, rfl⟩

/-- The chip that has seen a phase is the bound one (R244). -/
theorem chipAfter_geom {d : PhaseDesc} {tx : List Byte} {res : PhaseResult} {s : State} {chip : Option Chip}
    (hm : chipMismatch s = false) (h : chipAfter d tx res s = .ok chip) : ∀ c ∈ chip, c.geom = some s.geom := by
  intro c' hc'
  obtain ⟨c, _, hphase⟩ := chipAfter_mem hm h c' hc'
  exact chipPhase_geom hphase

/-- An answer uses up one entry of the list, puts one phase on record, and brings the request nearer to its end. -/
theorem step_of_answered {s : State} {res : PhaseResult} {given : List Byte} {rest : List BusAnswer} (hs : StateInv s)
    (hfit : ChipFits s) (hw : Waits s.agenda) (hf : s.fsm ≠ .idle) (ha : s.busAnswers = .answered res given :: rest) :
    ∃ t, step s = .next t ∧ Advances s.fsm t ∧ ChipFits t ∧ t.agenda = s.agenda ∧ t.busAnswers = rest ∧
      t.trace.length = s.trace.length + 1 := by
  obtain ⟨d, tx, go, h⟩ := exists_issues hs hw hf
  have hm := chipMismatch_of_fits hfit
  obtain ⟨chip, hchip⟩ := h.exists_chipAfter hfit res
  have hstep := h.step_eq.trans (issue_answered go h.no_fault hm ha hchip)
  obtain ⟨_, _, _, hframe⟩ := after_frame (phaseDone d tx res (receivedBytes s.draws d res given s.chip chip) chip s) res
    (receivedBytes s.draws d res given s.chip chip) go h.rule.eq_after
  refine ⟨_, hstep, h.rule.advances _ _ _, ?_⟩
  rw [hframe]
  exact ⟨fun c hc => .inr (chipAfter_geom hm hchip c hc), rfl, by simp [ha], by simp⟩

/-- A request in progress ends once as many answers come as it has phases left, with any silence between them; by induction on
the answers to come. -/
theorem run_ends {answers : List BusAnswer} : ∀ {s : State}, StateInv s → ChipFits s → Waits s.agenda → s.fsm ≠ .idle →
    s.busAnswers = answers → phasesLeft s.fsm ≤ (answers.filter (· != .silent)).length →
    ∃ n t, n ≤ answers.length ∧ Sys2Proof.core.run n s = .next t ∧
      t.trace.length ≤ s.trace.length + phasesLeft s.fsm ∧ t.fsm = .idle ∧ t.resp.valid = true := by
  induction answers with
  | nil =>
    intro s hs _ hw hf _ hleft
    obtain ⟨_, _, _, h⟩ := exists_issues hs hw hf
    exact absurd hleft (by simpa using h.rule.phasesLeft_pos.ne')
  | cons a rest ih =>
    intro s hs hfit hw hf ha hleft
    cases a with
    | silent =>
      have hstep := step_of_silent hs hfit hw hf (by simp [nextBusAnswer, ha])
      obtain ⟨n, t, hn, hrun, htrace, hend⟩ :=
        ih (s := waitForBus s) (step_keepsStateInv hs hstep) hfit hw hf (by simp [ha]) (by simpa using hleft)
      exact ⟨n + 1, t, by simpa using hn, (run_succ n hstep).trans hrun, htrace, hend⟩
    | answered res given =>
      obtain ⟨u, hstep, hadvances, hfit', hagenda, hanswers, htrace₁⟩ := step_of_answered hs hfit hw hf ha
      have hcount : phasesLeft s.fsm ≤ (rest.filter (· != .silent)).length + 1 := by simpa using hleft
      rcases hadvances with ⟨hidle, hvalid⟩ | ⟨hbusy, hless⟩
      · obtain ⟨_, _, _, h⟩ := exists_issues hs hw hf
        have hpos := h.rule.phasesLeft_pos
        exact ⟨1, u, by simp, run_succ 0 hstep, by omega, hidle, hvalid⟩
      · obtain ⟨n, t, hn, hrun, htrace, hend⟩ :=
          ih (step_keepsStateInv hs hstep) hfit' (hagenda ▸ hw) hbusy hanswers (by omega)
        exact ⟨n + 1, t, by simpa using hn, (run_succ n hstep).trans hrun, by omega, hend⟩

/-- Settles O60: at most four phases are left in any state, so four answers are enough; CS_ACTIVE is 0 by the invariant. -/
theorem everyRequestEnds : Obligations.EveryRequestEnds := by
  intro s hs hfit hag hf hanswers
  have hleft := phasesLeft_le s.fsm
  obtain ⟨n, t, hn, hrun, htrace, hidle, hvalid⟩ :=
    run_ends hs hfit (by simp [hag, Waits]) hf rfl (hleft.trans hanswers)
  exact ⟨n, t, hn, hrun, by omega, hidle, (run_keepsStateInv hs hrun).csActive_of_idle hidle, hvalid⟩

end Sys2Proof.Machine
end

section
/-!
Which instruction a step runs (R131, R141, R171, R242): in IDLE the presented request or configuration operation, while BUSY the
phase whose word stands on the phase port.
-/

namespace Sys2Proof.Machine

/-- Settles O9: in IDLE neither waits, and `fetch` hands over the decoded descriptor. -/
theorem stepRunsThePresentedOperation : Obligations.StepRunsThePresentedOperation := by
  intro s rest hf
  have hidle : s.busy = false := by simp [State.busy, hf]
  exact ⟨fun d w hag => step_run (by simp [fetch, hag, hidle]), fun d hag => step_run (by simp [fetch, hag, hidle])⟩

/-- The block's own move in a busy state without a reserved code is the phase on its port (R87, R141). -/
theorem fetchPhase_of_phaseWord {s : State} {w : Nat} {i : Instr} (h0 : s.fsm ≠ .idle) (h6 : s.fsm ≠ .reserved6)
    (h7 : s.fsm ≠ .reserved7) (hw : phaseWord s = some w) (hd : decodePhase w = .ok i) : fetchPhase s = .run i s := by
  cases hf : s.fsm
  case idle => exact absurd hf h0
  case reserved6 => exact absurd hf h6
  case reserved7 => exact absurd hf h7
  all_goals simp [fetchPhase, hf, hw, hd]

/-- Settles O10: with nothing listed, or a pause, the step is the block's own move. -/
theorem stepIssuesThePhaseOnThePort : Obligations.StepIssuesThePhaseOnThePort := by
  intro s s' hgo
  obtain ⟨hfetch, hfsm, hword⟩ : fetch s = fetchPhase s' ∧ s'.fsm = s.fsm ∧ phaseWord s' = phaseWord s := by
    rcases hgo with ⟨hag, rfl⟩ | ⟨rest, hag, rfl⟩
    · exact ⟨by simp [fetch, hag], rfl, rfl⟩
    · exact ⟨by simp [fetch, hag], rfl, rfl⟩
  rw [← hfsm, ← hword]
  refine ⟨fun hf => step_done ?_, fun hf => step_done ?_, fun w i h0 h6 h7 hw hd => step_run ?_⟩ <;> rw [hfetch]
  · simp [fetchPhase, hf]
  · rcases hf with hf | hf <;> simp [fetchPhase, hf]
  · exact fetchPhase_of_phaseWord h0 h6 h7 hw hd

end Sys2Proof.Machine
end

section
/-!
Requests inside the device (R131, R132): the acceptance of each spelled out, a transfer from the encoder's output, and SYNC, which
completes at once (R160).
-/

namespace Sys2Proof.Machine

/-- Inside the device a transfer latches the encoder's output and sets the first phase (R132). -/
theorem startTransfer_of_encodeAddr_ok {s : State} {bytes : List Byte} {bits : BitVec 6}
    (he : encodeAddr s.req.offset s.geom.aw = .ok (bytes, bits))
    (hin : s.req.offset.toNat + s.req.length.toNat ≤ s.geom.size.toNat) :
    startTransfer s = { s with addr := latchOf bytes bits, fsm := firstPhase s.req.op } := by
  simp [startTransfer, he, (inBounds_iff _ _ _).2 hin]

/-- The state that a presented transfer inside the device starts in (R131, R132). -/
theorem exec_transfers_of_encodeAddr_ok {op : ReqOp} {o l : Word32} {i : Instr} {data : List Byte} {s : State}
    {bytes : List Byte} {bits : BitVec 6} (hi : Transfers op o l i) (hp : Presents op l data s)
    (hin : o.toNat + l.toNat ≤ s.geom.size.toNat) (he : encodeAddr o s.geom.aw = .ok (bytes, bits)) :
    exec i s = .next { s with
      fsm := firstPhase op
      req := ⟨op, o, l, data⟩
      addr := latchOf bytes bits
      resp := clearedResponse
      err := clearedError
      wdata := none } := by
  obtain ⟨htaken, rfl⟩ := hp.taken
  rw [exec_transfers hi htaken, startTransfer_of_encodeAddr_ok he hin]
  rfl

/-- The same, with the latch spelled out for each width (R101, R104). -/
theorem exec_transfers_inside {op : ReqOp} {o l : Word32} {i : Instr} {data : List Byte} {s : State}
    (hi : Transfers op o l i) (hp : Presents op l data s) (hin : o.toNat + l.toNat ≤ s.geom.size.toNat) :
    (s.geom.aw = 2 → exec i s = .next { s with
      fsm := firstPhase op
      req := ⟨op, o, l, data⟩
      addr := ⟨(o >>> 8).setWidth 8, o.setWidth 8, 0, 16⟩
      resp := ⟨false, 0, 0, []⟩
      err := ⟨false, 0, 0, 0, 0, 0⟩
      wdata := none }) ∧
    (s.geom.aw = 3 → exec i s = .next { s with
      fsm := firstPhase op
      req := ⟨op, o, l, data⟩
      addr := ⟨(o >>> 16).setWidth 8, (o >>> 8).setWidth 8, o.setWidth 8, 24⟩
      resp := ⟨false, 0, 0, []⟩
      err := ⟨false, 0, 0, 0, 0, 0⟩
      wdata := none }) := by
  refine ⟨fun haw => ?_, fun haw => ?_⟩
  · exact exec_transfers_of_encodeAddr_ok hi hp hin (by rw [haw, encodeAddr_two])
  · exact exec_transfers_of_encodeAddr_ok hi hp hin (by rw [haw, encodeAddr_three])

/-- Settles O19: a READ's first phase is CMD, and it latches no data. -/
theorem readStartsAtCmd : Obligations.ReadStartsAtCmd := by
  intro s o l hf hw hin
  have h := exec_transfers_inside (op := .read) (data := []) rfl ⟨hf, hw, rfl⟩ hin
  rwa [← hw] at h

/-- Settles O20: a WRITE's first phase is WREN, and it latches the data of the request port. -/
theorem writeStartsAtWren : Obligations.WriteStartsAtWren :=
  fun _ _ _ _ hf hw hl hin => exec_transfers_inside (op := .write) rfl ⟨hf, hw, hl⟩ hin

/-- Settles O21: an ERASE, by either name, starts like a WRITE of zeros. -/
theorem eraseAndZfillStartAtWren : Obligations.EraseAndZfillStartAtWren := by
  intro s o l i hi hf hw hin
  have h := exec_transfers_inside (op := .erase) hi ⟨hf, hw, rfl⟩ hin
  rwa [← hw] at h

/-- A SYNC that the port takes is accepted and completed (R160). -/
theorem exec_sync {o l : Word32} {s : State} (hp : portRefusal .sync l s = none) :
    exec (.sync o l) s = .next (complete .ok 0 [] (acceptRequest .sync o l s)) := by
  simp [exec, execSync, hp]

/-- Settles O22: SYNC is completed by its acceptance, and with a reserved bit set it is an INVALID_REQUEST. -/
theorem syncCompletesAtOnce : Obligations.SyncCompletesAtOnce := by
  intro s o l hf hw
  obtain ⟨htaken, _⟩ := Presents.taken (op := .sync) (l := l) ⟨hf, hw, rfl⟩
  refine ⟨?_, fun r => ?_⟩
  · rw [exec_sync htaken, complete, acceptRequest, ← hf, ← hw]
    rfl
  · rw [exec_invalidRequest r htaken, raise_invalidRequest_acceptRequest hf, ← hw]
    rfl

end Sys2Proof.Machine
end

section
/-!
What whole requests leave, every phase answered OK and the chip attached (R120, R150, R152, R154, R156, R157).
-/

namespace Sys2Proof.Machine

/-- Settles O55: the chip at the end of the READ has its array and its latch as before. -/
theorem readRunsThreePhases : Obligations.ReadRunsThreePhases := by
  intro s c o l hs hfit hf hb hc hin hag ha data
  obtain ⟨_, address, hlength, hvalue, hrun⟩ := run_read_request_ok hs hb hc hfit hin hf hag trivial ha
  exact ⟨_, _, address, hrun, rfl, rfl, rfl, rfl, rfl, fun _ => rfl, rfl, hlength, hvalue, rfl⟩

/-- Every stored byte reads as it was given. -/
theorem chip_byte_writeBytes_at (c : Chip) (a : Nat) (bs : List Byte) (k : Nat) (h : k < bs.length) :
    Chip.byte { c with array := Memory.writeBytes c.array a bs } (a + k) = bs[k] := by
  simp [Chip.byte, memory_read_writeBytes_at c.array a bs k h]

/-- Settles O56: the array at the end of the WRITE has the data from the offset on and is otherwise as before. -/
theorem writeRunsFourPhases : Obligations.WriteRunsFourPhases := by
  intro s c o l data hs hfit hf hb hc hcount hin hag ha
  obtain ⟨_, address, hlength, hvalue, hrun⟩ := run_store_request_ok (op := .write) hs hb hc hfit hin rfl rfl hag trivial
    ⟨hf, rfl, hcount⟩ ha
  exact ⟨_, _, address, hrun, rfl, rfl, rfl, rfl, rfl, rfl, chip_byte_writeBytes_at c _ data,
    fun x hx => chip_byte_writeBytes_outside c data (hcount ▸ hx), hlength, hvalue, rfl⟩

/-- Settles O58: the ERASE leaves its zeros in the array while the READ waits, and the READ then finds an idle sound block. -/
theorem readAfterEraseReturnsZeros : Obligations.ReadAfterEraseReturnsZeros := by
  intro s c o l hs hfit hf hb hc hin hag ha
  obtain ⟨_, _, _, _, herase⟩ := run_store_request_ok (op := .erase) hs hb hc hfit hin rfl (.inl rfl) hag trivial
    ⟨hf, rfl, rfl⟩ (ha.drop 0 (by decide) rfl)
  have hs₁ := run_keepsStateInv hs herase
  obtain ⟨_, _, _, _, hread⟩ := run_read_request_ok hs₁ hb rfl (chipFits_of_geom rfl rfl) hin rfl rfl trivial
    (ha.drop 4 le_rfl rfl)
  refine ⟨_, (run_add 4 herase).trans hread, rfl, ?_⟩
  have hstored := chip_bytes_writeBytes c o.toNat (zeros l.toNat)
  rw [zeros_length] at hstored
  exact congrArg (Response.mk true 0 l) hstored

end Sys2Proof.Machine
end

section
/-!
How many phases a request takes (R151, R153): each answered phase is one step, and where it leads is a function of the policy, the
state and the answer (R142 to R147), so the count is read off the answers.
-/

namespace Sys2Proof.Machine

/-- Where an answered phase leads (R142 to R147). -/
def fsmAfter (p : PhaseErrorPolicy) (f : Fsm) (res : PhaseResult) : Fsm :=
  let goesOn := res = .ok ∨ p = .permissive
  match f with
  | .wren => if goesOn then .cmd else .idle
  | .cmd => if goesOn then .addr else .abort
  | .addr => if goesOn then .data else .abort
  | .data => .idle
  | .abort => .idle
  | .idle => .idle
  | .reserved6 => .reserved6
  | .reserved7 => .reserved7

theorem goesOn_iff (res : PhaseResult) (s : State) : goesOn res s = true ↔ res = .ok ∨ s.policy = .permissive := by
  simp [goesOn]

theorem AnswerRule.fsm_after {f : Fsm} {go : PhaseResult → List Byte → State → State} (h : AnswerRule f go)
    (res : PhaseResult) (rx : List Byte) (u : State) : (go res rx u).fsm = fsmAfter u.policy f res := by
  cases h with
  | wren | cmd | addr =>
    simp only [afterWren, afterCmd, afterAddr, fsmAfter, ← goesOn_iff]
    split <;> rfl
  | dataRx | dataTx | release => cases res <;> rfl

/-- The step of a sound busy block whose phase is answered leads where the answer says. -/
theorem step_fsm_of_answered {s t : State} {res : PhaseResult} {given : List Byte} {rest : List BusAnswer}
    (hs : StateInv s) (hw : Waits s.agenda) (hf : s.fsm ≠ .idle) (ha : s.busAnswers = .answered res given :: rest)
    (ht : step s = .next t) : t.fsm = fsmAfter s.policy s.fsm res := by
  obtain ⟨d, tx, go, h⟩ := exists_issues hs hw hf
  have hnext : nextBusAnswer s = .answered res given := by simp [nextBusAnswer, ha]
  obtain ⟨_, _, ⟨hsilent, _⟩ | ⟨res', given', chip, hanswered, _, rfl⟩⟩ := issue_next (h.step_eq ▸ ht)
  · cases hnext.symm.trans hsilent
  · cases hnext.symm.trans hanswered
    exact h.rule.fsm_after _ _ _

/-- How many of the answered phases a request takes before it is in IDLE. -/
def phaseCount (p : PhaseErrorPolicy) : Fsm → List PhaseResult → Nat
  | .idle, _ => 0
  | _, [] => 0
  | f, res :: rest => phaseCount p (fsmAfter p f res) rest + 1

theorem phaseCount_cons {p : PhaseErrorPolicy} {f : Fsm} (hf : f ≠ .idle) (res : PhaseResult) (rest : List PhaseResult) :
    phaseCount p f (res :: rest) = phaseCount p (fsmAfter p f res) rest + 1 := by
  cases f
  case idle => exact absurd rfl hf
  all_goals rfl

@[simp] theorem phaseCount_idle (p : PhaseErrorPolicy) (answers : List PhaseResult) : phaseCount p .idle answers = 0 := by
  cases answers <;> rfl

section
variable (p : PhaseErrorPolicy) (r₀ r₁ r₂ r₃ : PhaseResult) (rest : List PhaseResult)

/-- DATA and the release end the request (R145, R146). -/
theorem phaseCount_end {f : Fsm} (hf : f = .data ∨ f = .abort) : phaseCount p f (r₀ :: rest) = 1 := by
  rcases hf with rfl | rfl <;> simp [phaseCount_cons, fsmAfter]

/-- After ADDR there is DATA, or the release. -/
theorem phaseCount_addr : phaseCount p .addr (r₀ :: r₁ :: rest) = 2 := by
  rw [phaseCount_cons (by decide), phaseCount_end]
  simp only [fsmAfter]
  split <;> simp

/-- After CMD there is the release, or ADDR and one more (R151). -/
theorem phaseCount_cmd :
    phaseCount p .cmd (r₀ :: r₁ :: r₂ :: rest) = if p = .abort ∧ r₀ = .busError then 2 else 3 := by
  rw [phaseCount_cons (by decide)]
  cases p <;> cases r₀ <;> simp [fsmAfter, phaseCount_addr, phaseCount_end]

/-- After WREN there is nothing, or the transaction (R153). -/
theorem phaseCount_wren :
    phaseCount p .wren (r₀ :: r₁ :: r₂ :: r₃ :: rest) =
      if p = .abort ∧ r₀ = .busError then 1 else if p = .abort ∧ r₁ = .busError then 3 else 4 := by
  rw [phaseCount_cons (by decide)]
  cases p <;> cases r₀ <;> cases r₁ <;> simp [fsmAfter, phaseCount_cmd]

end

/-- With enough phases answered a request ends, one step and one phase on record for each that it takes; by induction on the
answers. -/
theorem run_phaseCount {rest : List BusAnswer} {answers : List (PhaseResult × List Byte)} : ∀ {s : State}, StateInv s →
    ChipFits s → Waits s.agenda → s.busAnswers = answers.map (fun a => .answered a.1 a.2) ++ rest →
    phasesLeft s.fsm ≤ answers.length →
    ∃ t, Sys2Proof.core.run (phaseCount s.policy s.fsm (answers.map Prod.fst)) s = .next t ∧ t.fsm = .idle ∧
      t.trace.length = s.trace.length + phaseCount s.policy s.fsm (answers.map Prod.fst) := by
  induction answers with
  | nil =>
    intro s hs _ hw _ hleft
    have hf : s.fsm = .idle := by
      by_contra hf
      obtain ⟨_, _, _, h⟩ := exists_issues hs hw hf
      exact absurd hleft (by simpa using h.rule.phasesLeft_pos.ne')
    exact ⟨s, by rw [hf]; rfl, hf, by rw [hf]; rfl⟩
  | cons a answers ih =>
    intro s hs hfit hw ha hleft
    by_cases hf : s.fsm = .idle
    · exact ⟨s, by rw [hf]; rfl, hf, by rw [hf]; rfl⟩
    obtain ⟨u, hstep, hadvances, hfit', hagenda, hanswers, htrace⟩ := step_of_answered hs hfit hw hf ha
    have hfsm := step_fsm_of_answered hs hw hf ha hstep
    obtain ⟨hpolicy, _⟩ := step_keepsPolicyAndRecords hstep
    have hleft' : phasesLeft u.fsm ≤ answers.length := by
      rcases hadvances with ⟨hidle, _⟩ | ⟨_, hless⟩
      · simp [hidle, phasesLeft]
      · exact Nat.le_of_lt_succ (hless.trans_le hleft)
    obtain ⟨t, hrun, hidle, htrace'⟩ := ih (step_keepsStateInv hs hstep) hfit' (hagenda ▸ hw) hanswers hleft'
    rw [hpolicy, hfsm] at hrun htrace'
    rw [List.map_cons, phaseCount_cons hf]
    exact ⟨t, (run_succ _ hstep).trans hrun, hidle, by omega⟩

/-- Settles O59: four answers are enough in any state, and the count is that of the state. -/
theorem phaseCounts : Obligations.PhaseCounts := by
  intro s r₀ r₁ r₂ r₃ g₀ g₁ g₂ g₃ rest hs hfit hag ha
  obtain ⟨t, hrun, hidle, htrace⟩ := run_phaseCount (answers := [(r₀, g₀), (r₁, g₁), (r₂, g₂), (r₃, g₃)]) hs hfit
    (by simp [hag, Waits]) ha (phasesLeft_le _)
  exact ⟨fun hf _ => ⟨_, t, hrun, hidle, htrace, by rw [hf]; exact phaseCount_cmd _ _ _ _ _⟩,
    fun hf => ⟨_, t, hrun, hidle, htrace, by rw [hf]; exact phaseCount_wren _ _ _ _ _ _⟩⟩

end Sys2Proof.Machine
end

section
/-!
What a completion is (R140, R215): every way into IDLE is a `complete`, whose status says what the response holds, or a `raise`,
which completes with an error. Of the instructions only a chip command is no part of an operation.
-/

namespace Sys2Proof.Machine

/-- The instruction has completed: the response is valid, OK comes with the length for a DATA phase and with no length from SYNC,
BIND and UNBIND, and an error with no length and no data. -/
def Completed (i : Instr) (t : State) : Prop :=
  t.resp.valid = true ∧
    (t.resp.status = 0 →
      (((∃ n, i = .phDataRx n ∨ i = .phDataTx n) ∧ t.resp.retlen = t.req.length) ∨
        ((∃ o l, i = .sync o l) ∨ (∃ v, i = .bind v) ∨ i = .unbind) ∧ t.resp.retlen = 0)) ∧
    (t.resp.status ≠ 0 → t.resp.retlen = 0 ∧ t.resp.rdata = [])

theorem completed_raise (i : Instr) {e : Status} (he : e ≠ .ok) (c : Option CfgOp) (w : Byte) (s : State) :
    Completed i (raise e c w s) := by
  have hcode : e.code ≠ 0 := by
    cases e
    case ok => exact absurd rfl he
    all_goals decide
  exact ⟨rfl, fun h => absurd h hcode, fun _ => ⟨rfl, rfl⟩⟩

/-- SYNC, BIND and UNBIND complete OK without data (R160, R172, R175). -/
theorem completed_ok_zero {i : Instr} (hi : (∃ o l, i = .sync o l) ∨ (∃ v, i = .bind v) ∨ i = .unbind) (s : State) :
    Completed i (complete .ok 0 [] s) :=
  ⟨rfl, fun _ => .inr ⟨hi, rfl⟩, fun h => absurd rfl h⟩

/-- A DATA phase completes OK with the request's length (R145). -/
theorem completed_ok_length {i : Instr} (hi : ∃ n, i = .phDataRx n ∨ i = .phDataTx n) (data : List Byte) (s : State) :
    Completed i (complete .ok s.req.length data s) :=
  ⟨rfl, fun _ => .inl ⟨hi, rfl⟩, fun h => absurd rfl h⟩

/-! ### Requests and configuration operations -/

/-- A transfer is in IDLE after its acceptance only when validation has failed (R132). -/
theorem completed_startTransfer (i : Instr) {s : State} (hop : s.req.op ≠ .sync) (hidle : (startTransfer s).fsm = .idle) :
    Completed i (startTransfer s) := by
  rcases startTransfer_cases s with ⟨_, _, h⟩ | ⟨_, _, _, _, h⟩ | ⟨_, _, _, _, h⟩ <;> rw [h] at hidle ⊢
  · exact completed_raise i (by decide) _ _ _
  · exact completed_raise i (by decide) _ _ _
  · cases hreq : s.req.op <;> simp_all [firstPhase]

theorem exec_request_completed {i : Instr} {s t : State} (hp : i.port = .request) (he : exec i s = .next t)
    (hidle : t.fsm = .idle) : Completed i t := by
  cases i <;> try (cases hp; done)
  case read o l | write o l | erase o l | zfill o l =>
    simp only [exec, execRead, execWrite, execErase, execZfill] at he
    split at he <;> cases he
    exact completed_startTransfer _ (by simp) hidle
  case sync o l =>
    simp only [exec, execSync] at he
    split at he <;> cases he
    exact completed_ok_zero (.inl ⟨o, l, rfl⟩) _
  case invalidRequest op r o l =>
    simp only [exec, execInvalidRequest] at he
    split at he <;> cases he
    exact completed_raise _ (by decide) _ _ _

theorem exec_config_completed {i : Instr} {s t : State} (hp : i.port = .config) (he : exec i s = .next t) :
    Completed i t := by
  cases i <;> try (cases hp; done)
  case bind v =>
    simp only [exec, execBind] at he
    split at he <;> cases he
    rcases claimAndRegister_cases v (unbindFirst (acceptConfig s)) with h | h | h <;> rw [h]
    · exact completed_raise _ (by decide) _ _ _
    · exact completed_raise _ (by decide) _ _ _
    · exact completed_ok_zero (.inr (.inl ⟨v, rfl⟩)) _
  case unbind =>
    simp only [exec, execUnbind] at he
    split at he <;> cases he
    unfold unbindBound
    repeat' split
    · exact completed_raise _ (by decide) _ _ _
    all_goals exact completed_ok_zero (.inr (.inr rfl)) _
  case invalidConfig op v r =>
    simp only [exec, execInvalidConfig] at he
    split at he <;> cases he
    exact completed_raise _ (by decide) _ _ _

/-! ### Phases -/

theorem busy_of_phaseWord {s : State} {w : Nat} (h : phaseWord s = some w) : s.fsm ≠ .idle := by
  intro hf
  simp [phaseWord, phaseDesc, hf] at h

/-- A phase in turn that ends in IDLE was answered: while it is outstanding the block is busy. -/
theorem inTurn_issue_idle {i : Instr} {d : PhaseDesc} {tx : List Byte} {go : PhaseResult → List Byte → State → State}
    {s t : State} (h : inTurn i s (issue d tx go s) = .next t) (hidle : t.fsm = .idle) : ∃ res rx u, t = go res rx u := by
  obtain ⟨hw, hissue⟩ := inTurn_next h
  obtain ⟨_, _, ⟨_, rfl⟩ | ⟨_, _, _, _, _, ht⟩⟩ := issue_next hissue
  · exact absurd hidle (busy_of_phaseWord hw)
  · exact ⟨_, _, _, ht⟩

theorem exec_phase_completed {i : Instr} {s t : State} (hp : i.port = .phase) (he : exec i s = .next t)
    (hidle : t.fsm = .idle) : Completed i t := by
  cases i <;> try (cases hp; done)
  all_goals obtain ⟨res, rx, u, rfl⟩ := inTurn_issue_idle he hidle
  case phWren =>
    unfold afterWren at hidle ⊢
    split at hidle
    · cases hidle
    next h => rw [if_neg h]; exact completed_raise _ (by decide) _ _ _
  case phCmd => rcases afterCmd_fsm res rx u with h | ⟨h, _⟩ <;> cases h.symm.trans hidle
  case phAddr2 | phAddr3 => rcases afterAddr_fsm res rx u with h | ⟨h, _⟩ <;> cases h.symm.trans hidle
  case phDataRx n | phDataTx n =>
    cases res
    · exact completed_ok_length ⟨n, by simp⟩ _ u
    · exact completed_raise _ (by decide) _ _ _
  case phRelease => exact completed_raise _ (by decide) _ _ _

/-- Settles O52: by the instruction's port; a chip command leaves the block alone, so it is no way into IDLE either. -/
theorem completionIsTheOnlyWayToIdle : Obligations.CompletionIsTheOnlyWayToIdle := by
  intro i s t he
  have hcommand : i.port = .command → t.resp = s.resp ∧ t.fsm = s.fsm := by
    intro hp
    obtain ⟨_, _, _, _, rfl⟩ := exec_command_next hp he
    exact ⟨rfl, rfl⟩
  have hcompleted : i.port ≠ .command → t.fsm = .idle → Completed i t := by
    intro hp hidle
    cases h : i.port with
    | request => exact exec_request_completed h he hidle
    | config => exact exec_config_completed h he
    | command => exact absurd h hp
    | phase => exact exec_phase_completed h he hidle
  refine ⟨fun hbusy hidle => ?_, hcompleted, hcommand⟩
  by_cases hp : i.port = .command
  · exact absurd ((hcommand hp).2 ▸ hidle) hbusy
  · exact (hcompleted hp hidle).1

end Sys2Proof.Machine
end

section
/-!
One phase of a request by its answer (R110, R141 to R148, R190, R197, R213): the phase instruction of the state runs in turn, the bus
engine takes it, the chip has its part of it, and the block goes on. First the phase and the chip's part for every answer and
either policy, then the block's part under Abort and under Permissive.
-/

namespace Sys2Proof.Machine

/-! ### The phase in turn -/

/-- The phase instruction that the state puts on the phase port runs (R87, R141). -/
theorem inTurn_of_phaseDesc {s : State} {d : PhaseDesc} {i : Instr} (hd : phaseDesc s = some d) (hi : d.instr = .ok i)
    (o : Host.Outcome State Fault Refusal) : inTurn i s o = o := by
  rw [inTurn, if_pos]
  rw [phaseWord, hd, PhaseDesc.encode_of_instr hi]
  rfl

/-- Where the chip's part of a phase is known, attached or not. -/
theorem chipAfter_map {d : PhaseDesc} {tx : List Byte} {res : PhaseResult} {s : State} {f : Chip → Chip} (hfit : ChipFits s)
    (hchip : ∀ c, s.chip = some c → chipPhase s.geom s.draws d tx res { c with geom := some s.geom } = .ok (f c)) :
    chipAfter d tx res s = .ok (s.chip.map f) := by
  cases hc : s.chip with
  | none => simp [chipAfter, hc]
  | some c => simp [chipAfter, hc, chipGeometry_of_fits hfit hc, hchip c hc]

/-- An answered phase: the state that the block goes on from. -/
theorem issue_eq_of_answer {d : PhaseDesc} {tx rx : List Byte} (go : PhaseResult → List Byte → State → State) {s : State}
    {cs : Bool} {res : PhaseResult} {given : List Byte} {rest : List BusAnswer} {chip : Option Chip}
    (hf : phaseFault d tx s = none) (hfit : ChipFits s) (ha : s.busAnswers = .answered res given :: rest)
    (hc : chipAfter d tx res s = .ok chip) (hrx : receivedBytes s.draws d res given s.chip chip = rx)
    (hcs : csAfter d.framing = cs) :
    issue d tx go s = .next (go res rx { s with
      csActive := cs
      outstanding := false
      busAnswers := rest
      draws := s.draws + 1
      trace := s.trace ++ [⟨d, tx, res, if res = .ok then rx else []⟩]
      chip := chip }) := by
  rw [issue_answered go hf (chipMismatch_of_fits hfit) ha hc, hrx]
  simp [phaseDone, takeBusAnswer, ha, hcs]

/-- The same for a phase that receives nothing. -/
theorem issue_eq_of_no_rx {d : PhaseDesc} {tx : List Byte} (go : PhaseResult → List Byte → State → State) {s : State}
    {cs : Bool} {res : PhaseResult} {given : List Byte} {rest : List BusAnswer} {chip : Option Chip} (hd : d.dir ≠ .rx)
    (hf : phaseFault d tx s = none) (hfit : ChipFits s) (ha : s.busAnswers = .answered res given :: rest)
    (hc : chipAfter d tx res s = .ok chip) (hcs : csAfter d.framing = cs) :
    issue d tx go s = .next (go res [] { s with
      csActive := cs
      outstanding := false
      busAnswers := rest
      draws := s.draws + 1
      trace := s.trace ++ [⟨d, tx, res, []⟩]
      chip := chip }) := by
  simpa using issue_eq_of_answer go hf hfit ha hc (if_neg hd) hcs

section
variable {s : State} {res : PhaseResult} {given : List Byte} {rest : List BusAnswer} (hfit : ChipFits s)
  (ha : s.busAnswers = .answered res given :: rest)

/-! ### The chip's part of each phase -/

/-- The latch after a WREN phase (R197 (d), R198). -/
def welAfterWren (draw : Nat) : PhaseResult → Bool
  | .ok => true
  | .busError => Config.freeWel draw

/-- The chip after a WREN phase: the transaction was the phase itself. -/
def chipAfterWren (s : State) (res : PhaseResult) (c : Chip) : Chip :=
  { c.closeTxn with geom := some s.geom, wel := welAfterWren s.draws res }

/-- The chip after a CMD phase: its transaction is open with the command byte. -/
def chipAfterCmd (s : State) (res : PhaseResult) (c : Chip) : Chip :=
  { c.openTxn with
    geom := some s.geom, txn := [commandByte s.req.op], health := TxnHealth.after .clean res }

/-- The chip after an ADDR phase: its transaction has the address bytes too. -/
def chipAfterAddr (s : State) (res : PhaseResult) (c : Chip) : Chip :=
  { c with geom := some s.geom, txn := c.txn ++ latchedBytes s, health := c.health.after res }

/-! ### The phases before DATA -/

include hfit ha

theorem exec_phWren_answered (hf : s.fsm = .wren) (hop : s.req.op = .write ∨ s.req.op = .erase)
    (hcs : s.csActive = false) :
    exec .phWren s = .next (afterWren res [] { s with
      outstanding := false
      busAnswers := rest
      draws := s.draws + 1
      trace := s.trace ++ [⟨⟨.csBeginEnd, .tx, 8⟩, [wrenByte], res, []⟩]
      chip := s.chip.map (chipAfterWren s res) }) := by
  have hd : phaseDesc s = some ⟨.csBeginEnd, .tx, 8⟩ := by rcases hop with hop | hop <;> simp [phaseDesc, hf, hop]
  refine (inTurn_of_phaseDesc hd rfl _).trans (issue_eq_of_no_rx afterWren (by decide) ?_ hfit ha ?_ hcs.symm)
  · simp [phaseFault_none_iff, hcs, framingLegal, framingBegins]
  · exact chipAfter_map hfit fun c _ => by cases res <;> rfl

theorem exec_phCmd_answered (hf : s.fsm = .cmd) (hop : s.req.op ≠ .sync) (hcs : s.csActive = false) :
    exec .phCmd s = .next (afterCmd res [] { s with
      csActive := true
      outstanding := false
      busAnswers := rest
      draws := s.draws + 1
      trace := s.trace ++ [⟨⟨.csBegin, .tx, 8⟩, [commandByte s.req.op], res, []⟩]
      chip := s.chip.map (chipAfterCmd s res) }) := by
  have hd : phaseDesc s = some ⟨.csBegin, .tx, 8⟩ := by
    cases h : s.req.op
    case sync => exact absurd h hop
    all_goals simp [phaseDesc, hf, h]
  refine (inTurn_of_phaseDesc hd rfl _).trans (issue_eq_of_no_rx afterCmd (by decide) ?_ hfit ha ?_ rfl)
  · simp [phaseFault_none_iff, hcs, framingLegal, framingBegins]
  · exact chipAfter_map hfit fun c _ => rfl

theorem exec_phAddr_answered {i : Instr} (hf : s.fsm = .addr) (hop : s.req.op ≠ .sync) (hcs : s.csActive = true)
    (hi : s.geom.aw = 2 ∧ s.addr.bits = 16 ∧ i = .phAddr2 ∨ s.geom.aw = 3 ∧ s.addr.bits = 24 ∧ i = .phAddr3) :
    exec i s = .next (afterAddr res [] { s with
      outstanding := false
      busAnswers := rest
      draws := s.draws + 1
      trace := s.trace ++ [⟨⟨.csNone, .tx, s.addr.bits.toNat⟩, latchedBytes s, res, []⟩]
      chip := s.chip.map (chipAfterAddr s res) }) := by
  obtain ⟨hd, hinstr, hexec, hlength⟩ : phaseDesc s = some ⟨.csNone, .tx, s.addr.bits.toNat⟩ ∧
      PhaseDesc.instr ⟨.csNone, .tx, s.addr.bits.toNat⟩ = .ok i ∧
      exec i s = inTurn i s (issue ⟨.csNone, .tx, s.addr.bits.toNat⟩ (latchedBytes s) afterAddr s) ∧
      (latchedBytes s).length = s.addr.bits.toNat / 8 := by
    have hd : phaseDesc s = phaseDesc.addrDesc s := by
      cases h : s.req.op
      case sync => exact absurd h hop
      all_goals simp [phaseDesc, hf, h]
    rcases hi with ⟨haw, hbits, rfl⟩ | ⟨haw, hbits, rfl⟩ <;>
      simp [hd, phaseDesc.addrDesc, haw, hbits, PhaseDesc.instr, exec, execPhAddr2, execPhAddr3, latchedBytes]
  rw [hexec, inTurn_of_phaseDesc hd hinstr]
  refine issue_eq_of_no_rx afterAddr (by simp) ?_ hfit ha ?_ hcs.symm
  · simp [phaseFault_none_iff, hcs, framingLegal, framingBegins, hlength]
  · exact chipAfter_map hfit fun c _ => rfl

end

/-! ### The block's part under Abort -/

section
variable {s : State} (hp : s.policy = .abort) (rx : List Byte)
include hp

theorem afterWren_failed : afterWren .busError rx s = raiseBusFailure (setErrPhase .wren s) := by
  simp [afterWren, goesOn, hp]

theorem afterCmd_failed : afterCmd .busError rx s = goto .abort (setErrPhase .cmd s) := by
  simp [afterCmd, goesOn, hp]

theorem afterAddr_failed : afterAddr .busError rx s = goto .abort (setErrPhase .addr s) := by
  simp [afterAddr, goesOn, hp]

end

/-- Settles O32: a failed WREN phase completes the request. -/
theorem wrenPhaseUnderAbort : Obligations.WrenPhaseUnderAbort := by
  intro s res given rest hf hop hcs hp hfit ha
  have hexec := exec_phWren_answered hfit ha hf hop hcs
  refine ⟨?_, ?_⟩ <;> rintro rfl
  · exact hexec.trans (congrArg _ (afterWren_ok [] _))
  · rw [hexec, afterWren_failed]
    · rfl
    · exact hp

/-- Settles O33: a failed CMD phase leaves chip-select asserted, and the release phase follows. -/
theorem cmdPhaseUnderAbort : Obligations.CmdPhaseUnderAbort := by
  intro s cmd res given rest hf hop hcs hp hfit ha
  obtain ⟨hsync, hcmd⟩ : s.req.op ≠ .sync ∧ commandByte s.req.op = cmd := by
    rcases hop with ⟨hop, rfl⟩ | ⟨hop, rfl⟩ | ⟨hop, rfl⟩ <;> simp [hop, commandByte, readByte, writeByte]
  have hexec := exec_phCmd_answered hfit ha hf hsync hcs
  unfold chipAfterCmd at hexec
  rw [hcmd] at hexec
  refine ⟨?_, ?_⟩ <;> rintro rfl
  · exact hexec.trans (congrArg _ (afterCmd_ok [] _))
  · rw [hexec, afterCmd_failed]
    · rfl
    · exact hp

/-- Settles O34: so does a failed ADDR phase. -/
theorem addrPhaseUnderAbort : Obligations.AddrPhaseUnderAbort := by
  intro s i bytes res given rest hf hop hw hcs hp hfit ha
  obtain ⟨hi, hbytes⟩ :
      (s.geom.aw = 2 ∧ s.addr.bits = 16 ∧ i = .phAddr2 ∨ s.geom.aw = 3 ∧ s.addr.bits = 24 ∧ i = .phAddr3) ∧
      latchedBytes s = bytes := by
    rcases hw with ⟨haw, hbits, rfl, rfl⟩ | ⟨haw, hbits, rfl, rfl⟩ <;> simp [haw, hbits, latchedBytes]
  have hexec := exec_phAddr_answered hfit ha hf hop hcs hi
  unfold chipAfterAddr at hexec
  rw [hbytes] at hexec
  refine ⟨?_, ?_⟩ <;> rintro rfl
  · exact hexec.trans (congrArg _ (afterAddr_ok [] _))
  · rw [hexec, afterAddr_failed]
    · rfl
    · exact hp

/-! ### The DATA phase of a READ (R145) -/

theorem exec_phDataRx_answered {s : State} {res : PhaseResult} {given rx : List Byte} {rest : List BusAnswer}
    {chip : Option Chip} (hfit : ChipFits s) (ha : s.busAnswers = .answered res given :: rest) (hf : s.fsm = .data)
    (hop : s.req.op = .read) (hcs : s.csActive = true)
    (hc : chipAfter ⟨.csEnd, .rx, 8 * s.req.length.toNat⟩ [] res s = .ok chip)
    (hrx : receivedBytes s.draws ⟨.csEnd, .rx, 8 * s.req.length.toNat⟩ res given s.chip chip = rx) :
    exec (.phDataRx (8 * s.req.length.toNat)) s = .next (afterDataRx res rx { s with
      csActive := false
      outstanding := false
      busAnswers := rest
      draws := s.draws + 1
      trace := s.trace ++ [⟨⟨.csEnd, .rx, 8 * s.req.length.toNat⟩, [], res, if res = .ok then rx else []⟩]
      chip := chip }) := by
  refine (inTurn_of_phaseDesc (phaseDesc_data_read hf hop) rfl _).trans
    (issue_eq_of_answer afterDataRx ?_ hfit ha hc hrx rfl)
  simp [phaseFault_none_iff, hcs, framingLegal, framingBegins]

/-- Settles O35: without a chip the bytes are those that the bus engine gives. -/
theorem dataPhaseOfReadDetached : Obligations.DataPhaseOfReadDetached := by
  intro s res given rest hf hop hcs hchip hcount ha
  have hcode : s.req.op.code = 0 := by rw [hop]; rfl
  have hrx : receivedBytes s.draws ⟨.csEnd, .rx, 8 * s.req.length.toNat⟩ res given s.chip s.chip = given := by
    simpa [receivedBytes, hchip, hcount] using fitBytes_exact s.draws given
  have hexec := exec_phDataRx_answered (by simp [ChipFits, hchip]) ha hf hop hcs (by simp [chipAfter, hchip]) hrx
  refine ⟨?_, ?_⟩ <;> rintro rfl
  · exact hexec
  · rw [hexec, ← hcode]
    rfl

section
variable {d : PhaseDesc} {tx : List Byte} {res : PhaseResult} {s : State} {c : Chip} (hc : s.chip = some c)
  (hg : c.geom = some s.geom)
include hc hg

/-- A chip that is known to be the bound one sees the phase as it is. -/
theorem chipAfter_of_bound {c' : Chip} (h : chipPhase s.geom s.draws d tx res c = .ok c') :
    chipAfter d tx res s = .ok (some c') := by
  have hsame : { c with geom := some s.geom } = c := by rw [← hg]
  simp [chipAfter, hc, chipGeometry, hg, hsame, h]

theorem exists_chipPhase_of_bound {chip : Option Chip} (h : chipAfter d tx res s = .ok chip) :
    ∃ c', chip = some c' ∧ chipPhase s.geom s.draws d tx res c = .ok c' := by
  have hsame : { c with geom := some s.geom } = c := by rw [← hg]
  obtain ⟨hn, _⟩ | ⟨_, c', hc', rfl, hphase⟩ := chipAfter_ok h
  · cases hc.symm.trans hn
  · cases hc.symm.trans hc'
    exact ⟨c', rfl, by simpa [chipGeometry, hg, hsame] using hphase⟩

end

/-- The DATA phase of an undamaged READ, answered OK, drives the array's bytes and ends the transaction (R193). -/
theorem chipPhase_read_ok {g : Geometry} {k n : Nat} {c : Chip} {address : List Byte} (hh : c.health = .clean)
    (htxn : c.txn = readByte :: address) (hlength : address.length = g.aw.toNat)
    (hin : beNat address + n ≤ g.size.toNat) :
    chipPhase g k ⟨.csEnd, .rx, 8 * n⟩ [] .ok c = .ok { c.closeTxn with out := c.bytes (beNat address) n } := by
  have hdata : dataInArray g (beNat address) n = true := by simp [dataInArray, hin]
  simp only [chipPhase, chipAct, chipRead, hh, htxn, List.append_nil, reduceIte, splitAddress_exact hlength,
    Nat.mul_div_cancel_left n (show 0 < 8 by decide), hdata]
  rfl

/-- Answered BusError it only ends the transaction (R197 (e)). -/
theorem chipPhase_read_failed (g : Geometry) (k n : Nat) {c : Chip} {address : List Byte} (hh : c.health = .clean)
    (htxn : c.txn = readByte :: address) : chipPhase g k ⟨.csEnd, .rx, n⟩ [] .busError c = .ok c.closeTxn := by
  simp [chipPhase, chipDataFailed, hh, htxn, readByte, writeByte]

/-- Settles O36: the chip drives the array's bytes, and the block takes them only when the phase is answered OK. -/
theorem dataPhaseOfReadAttached : Obligations.DataPhaseOfReadAttached := by
  intro s c address res given rest hf hop hcs hc hg hh htxn hlength hin ha data
  have hcode : s.req.op.code = 0 := by rw [hop]; rfl
  have hclosed : c.closeTxn = { c with txnOpen := false, txn := [], clocked := 0, out := [] } := by
    simp [Chip.closeTxn, hh]
  refine ⟨?_, ?_⟩ <;> rintro rfl
  · have hrx : receivedBytes s.draws ⟨.csEnd, .rx, 8 * s.req.length.toNat⟩ .ok given s.chip
        (some { c.closeTxn with out := data }) = data := by
      simpa [receivedBytes, hc, hh, data] using fitBytes_exact s.draws data
    have hexec := exec_phDataRx_answered (chipFits_of_geom hc hg) ha hf hop hcs
      (chipAfter_of_bound hc hg (chipPhase_read_ok hh htxn hlength hin)) hrx
    rw [hexec, hclosed]
    rfl
  · have hexec := exec_phDataRx_answered (chipFits_of_geom hc hg) ha hf hop hcs
      (chipAfter_of_bound hc hg (chipPhase_read_failed _ _ _ hh htxn)) rfl
    rw [hexec, hclosed, ← hcode]
    rfl

/-! ### The DATA phase of a WRITE or ERASE (R145) -/

/-- The DATA phase of an undamaged WRITE, whatever its answer, leaves every byte outside its target alone (R194, R197 (b)). -/
theorem chipPhase_write_outside {g : Geometry} {k n x : Nat} {tx address : List Byte} {res : PhaseResult} {c c' : Chip}
    (hh : c.health = .clean) (htxn : c.txn = writeByte :: address) (hlength : address.length = g.aw.toNat)
    (htx : tx.length = n) (h : chipPhase g k ⟨.csEnd, .tx, 8 * n⟩ tx res c = .ok c')
    (hx : x < beNat address ∨ beNat address + n ≤ x) : c'.byte x = c.byte x := by
  have hcmd : writeByte ≠ readByte := by decide
  cases res with
  | ok =>
    simp only [chipPhase, chipAct, chipWrite, hh, htxn, List.cons_append, reduceIte, hcmd,
      splitAddress_append hlength] at h
    split at h
    · cases h
      split
      · exact chip_byte_writeBytes_outside c tx (htx ▸ hx)
      · rfl
    · cases h
  | busError =>
    simp only [chipPhase, chipDataFailed, chipSmear, hh, htxn, reduceIte, splitAddress_exact hlength] at h
    cases h
    refine chip_byte_writeBytes_outside c _ (hx.imp_right fun hx => le_trans ?_ hx)
    simp

/-- Settles O37: the answer alone completes the request, and the phase ends the chip's transaction. -/
theorem dataPhaseOfWriteCompletes : Obligations.DataPhaseOfWriteCompletes := by
  intro s res given rest hs hfit hf hop ha
  have hread : s.req.op ≠ .read := by rcases hop with h | h <;> simp [h]
  -- the agenda has no part in a phase instruction
  have hissues := issues_data_store (s := { s with agenda := [] }) hs trivial hf hread
  obtain ⟨chip, hc⟩ : ∃ chip, chipAfter ⟨.csEnd, .tx, 8 * s.req.length.toNat⟩ s.req.data res s = .ok chip :=
    hissues.exists_chipAfter hfit res
  have hexec : exec (.phDataTx (8 * s.req.length.toNat)) s = _ :=
    (inTurn_of_phaseDesc (hs.phaseDesc_data_store hf hread) rfl _).trans
      (issue_eq_of_no_rx afterDataTx (by simp) hissues.no_fault hfit ha hc rfl)
  refine ⟨chip, ?_, ?_, fun hn => ?_, fun c hsome => ?_⟩
  · rintro rfl
    exact hexec
  · rintro rfl
    exact hexec
  · simpa [chipAfter, hn] using hc.symm
  · have hg := hs.chip_geom_of_selected (.inr (.inl hf)) hsome
    obtain ⟨c', rfl, hphase⟩ := exists_chipPhase_of_bound hsome hg hc
    obtain ⟨_, hlength, _⟩ := hs.latchedBytes_of_busy (by simp [hf])
    have hcmd : commandByte s.req.op = writeByte := by rcases hop with h | h <;> simp [h, commandByte]
    have hcount : s.req.data.length = s.req.length.toNat := by
      obtain ⟨_, _, hdata⟩ := hs.op_of_busy (by simp [hf])
      rw [hdata]
      rcases hop with h | h <;> simp [dataCount, h]
    refine ⟨c', rfl, chipPhase_end hphase rfl, chipPhase_geom hphase, fun hh x hx => ?_⟩
    have htxn := hs.chip_txn_of_data hf hsome hh
    exact chipPhase_write_outside hh (hcmd ▸ htxn) hlength hcount hphase hx

/-! ### The release phase (R146) -/

/-- The release ends the chip's transaction without touching the array (R197 (a)). -/
theorem chipAbandon_byte (k : Nat) (c : Chip) (x : Nat) : (chipAbandon k c).byte x = c.byte x := by
  unfold chipAbandon
  split
  · rfl
  · split <;> rfl

theorem chipAbandon_wel_of_read (k : Nat) {c : Chip} {bytes : List Byte} (h : c.txn = readByte :: bytes) :
    (chipAbandon k c).wel = c.wel := by
  simp [chipAbandon, h, readByte, writeByte]

/-- The chip after the release phase. -/
def chipAfterRelease (s : State) (c : Chip) : Chip := chipAbandon s.draws { c with geom := some s.geom }

theorem exec_phRelease_answered {s : State} {res : PhaseResult} {given : List Byte} {rest : List BusAnswer}
    (hfit : ChipFits s) (ha : s.busAnswers = .answered res given :: rest) (hf : s.fsm = .abort) (hcs : s.csActive = true) :
    exec .phRelease s = .next (raiseBusFailure { s with
      csActive := false
      outstanding := false
      busAnswers := rest
      draws := s.draws + 1
      trace := s.trace ++ [⟨⟨.csEnd, .noData, 0⟩, [], res, []⟩]
      chip := s.chip.map (chipAfterRelease s) }) := by
  refine (inTurn_of_phaseDesc (phaseDesc_abort hf) rfl _).trans
    (issue_eq_of_no_rx afterRelease (by decide) ?_ hfit ha (chipAfter_map hfit fun c _ => rfl) rfl)
  simp [phaseFault_none_iff, hcs, framingLegal, framingBegins]

/-- Settles O39: the chip abandons its transaction, and that of a READ with its latch as before. -/
theorem releasePhaseCompletes : Obligations.ReleasePhaseCompletes := by
  intro s res given rest hf hcs hfit ha
  refine ⟨_, exec_phRelease_answered hfit ha hf hcs, by simp +contextual, fun c hc => ?_⟩
  exact ⟨chipAfterRelease s c, by simp [hc], (chipAbandon_closed _ _).1, chipAbandon_byte _ _,
    fun _ htxn => chipAbandon_wel_of_read _ htxn⟩

end Sys2Proof.Machine
end

section
/-!
The phases under Permissive (R147, R148): before DATA every answer leads on, so there is no way into ABORT, and DATA itself does not
go by the policy.
-/

namespace Sys2Proof.Machine

/-! ### The block's part under Permissive -/

section
variable {s : State} (hp : s.policy = .permissive) (res : PhaseResult) (rx : List Byte)
include hp

theorem goesOn_permissive : goesOn res s = true := by simp [goesOn, hp]

theorem afterWren_permissive : afterWren res rx s = goto .cmd s := if_pos (goesOn_permissive hp res)

theorem afterCmd_permissive : afterCmd res rx s = goto .addr s := if_pos (goesOn_permissive hp res)

theorem afterAddr_permissive : afterAddr res rx s = goto .data s := if_pos (goesOn_permissive hp res)

end

theorem fsmAfter_permissive_ne_abort (f : Fsm) (res : PhaseResult) : fsmAfter .permissive f res ≠ .abort := by
  cases f <;> simp [fsmAfter]

/-- Each of the block's ways to take an answer is that of some state. -/
theorem exists_answerRule {go : PhaseResult → List Byte → State → State}
    (h : go = afterWren ∨ go = afterCmd ∨ go = afterAddr ∨ go = afterDataRx ∨ go = afterDataTx ∨ go = afterRelease) :
    ∃ f, AnswerRule f go := by
  rcases h with rfl | rfl | rfl | rfl | rfl | rfl
  exacts [⟨_, .wren⟩, ⟨_, .cmd⟩, ⟨_, .addr⟩, ⟨_, .dataRx⟩, ⟨_, .dataTx⟩, ⟨_, .release⟩]

/-- Under Permissive no instruction leads from another state into ABORT. -/
theorem exec_permissive_ne_abort {i : Instr} {s t : State} (hp : s.policy = .permissive) (hf : s.fsm ≠ .abort)
    (he : exec i s = .next t) : t.fsm ≠ .abort := by
  by_cases hport : i.port = .phase
  · obtain ⟨d, tx, go, hexec, _, hgo⟩ := exec_phase i s hport
    obtain ⟨_, hissue⟩ := inTurn_next (hexec ▸ he)
    obtain ⟨f, hrule⟩ := exists_answerRule hgo
    obtain ⟨_, _, ⟨_, rfl⟩ | ⟨res, given, chip, _, _, rfl⟩⟩ := issue_next hissue
    · exact hf
    · rw [hrule.fsm_after, phaseDone_policy, hp]
      exact fsmAfter_permissive_ne_abort f res
  · rcases exec_other hport he with ⟨_, h | h | h, _⟩ | ⟨_, rfl⟩
    · simp [h]
    · simp [h]
    · simp [h]
    · exact hf

/-! ### DATA under either policy -/

/-- A phase whose answer is taken without the policy does not go by it. -/
theorem issue_withPolicy {d : PhaseDesc} {tx : List Byte} {go : PhaseResult → List Byte → State → State} {s t : State}
    (q : PhaseErrorPolicy) (hgo : ∀ res rx u, go res rx { u with policy := q } = { go res rx u with policy := q })
    (h : issue d tx go s = .next t) : issue d tx go { s with policy := q } = .next { t with policy := q } := by
  obtain ⟨hf, hm, hanswer⟩ := issue_next h
  have hf' : phaseFault d tx { s with policy := q } = none := hf
  have hm' : chipMismatch { s with policy := q } = false := hm
  rcases hanswer with ⟨ha, rfl⟩ | ⟨res, given, chip, ha, hc, rfl⟩
  · have ha' : nextBusAnswer { s with policy := q } = .silent := ha
    simp only [issue, hf', hm', ha']
    rfl
  · have ha' : nextBusAnswer { s with policy := q } = .answered res given := ha
    have hc' : chipAfter d tx res { s with policy := q } = .ok chip := hc
    simp only [issue, hf', hm', ha', hc', ← hgo]
    rfl

theorem exec_data_withPolicy {i : Instr} {n : Nat} {s t : State} (hi : i = .phDataRx n ∨ i = .phDataTx n)
    (q : PhaseErrorPolicy) (h : exec i s = .next t) : exec i { s with policy := q } = .next { t with policy := q } := by
  rcases hi with rfl | rfl
  all_goals
    obtain ⟨hw, hissue⟩ := inTurn_next h
    refine (if_pos hw).trans (issue_withPolicy q (fun res rx u => ?_) hissue)
    cases res <;> rfl

/-! ### The phases before DATA -/

/-- The rows of R87 before DATA: the phase instruction, where it leads, and what it puts on the phase port. -/
def BeforeData (s : State) (i : Instr) (after : Fsm) (desc : PhaseDesc) (bytes : List Byte) : Prop :=
  (s.fsm = .wren ∧ i = .phWren ∧ after = .cmd ∧ desc = ⟨.csBeginEnd, .tx, 8⟩ ∧ bytes = [0x06]) ∨
    (s.fsm = .cmd ∧ i = .phCmd ∧ after = .addr ∧ desc = ⟨.csBegin, .tx, 8⟩ ∧
      ((s.req.op = .read ∧ bytes = [0x03]) ∨ (s.req.op ≠ .read ∧ bytes = [0x02]))) ∨
    (s.fsm = .addr ∧ s.geom.aw = 2 ∧ i = .phAddr2 ∧ after = .data ∧ desc = ⟨.csNone, .tx, 16⟩ ∧
      bytes = [s.addr.b0, s.addr.b1]) ∨
    (s.fsm = .addr ∧ s.geom.aw = 3 ∧ i = .phAddr3 ∧ after = .data ∧ desc = ⟨.csNone, .tx, 24⟩ ∧
      bytes = [s.addr.b0, s.addr.b1, s.addr.b2])

/-- What a phase before DATA does to the chip: the array stays, and the latch is written by WREN alone (R197 (d), R198). -/
def ChipBeforeData (s : State) (res : PhaseResult) (c c' : Chip) : Prop :=
  (∀ x, c'.byte x = c.byte x) ∧ (s.fsm = .wren → res = .ok → c'.wel = true) ∧
    (s.fsm = .wren → res = .busError → c'.wel = Config.freeWel s.draws) ∧ (s.fsm ≠ .wren → c'.wel = c.wel)

/-- Under Permissive a phase before DATA leads on whatever its answer. -/
theorem exec_permissive_before_data {s : State} {res : PhaseResult} {given : List Byte} {rest : List BusAnswer} {i : Instr}
    {after : Fsm} {desc : PhaseDesc} {bytes : List Byte} (hs : StateInv s) (hfit : ChipFits s) (hp : s.policy = .permissive)
    (ha : s.busAnswers = .answered res given :: rest) (hrow : BeforeData s i after desc bytes) :
    ∃ cs f, exec i s = .next (goto after { s with
      csActive := cs
      outstanding := false
      busAnswers := rest
      draws := s.draws + 1
      trace := s.trace ++ [⟨desc, bytes, res, []⟩]
      chip := s.chip.map f }) ∧ ∀ c, ChipBeforeData s res c (f c) := by
  rcases hrow with ⟨hf, rfl, rfl, rfl, rfl⟩ | ⟨hf, rfl, rfl, rfl, hbytes⟩ | haddr
  · obtain ⟨hsync, hread, _⟩ := hs.op_of_busy (by simp [hf])
    have hop : s.req.op = .write ∨ s.req.op = .erase := by cases h : s.req.op <;> simp_all
    have hexec := exec_phWren_answered hfit ha hf hop (hs.csActive_of_unselected (.inl hf))
    rw [afterWren_permissive] at hexec
    · exact ⟨_, _, hexec, fun c => ⟨fun _ => rfl, fun _ h => h ▸ rfl, fun _ h => h ▸ rfl, fun h => absurd hf h⟩⟩
    · exact hp
  · obtain ⟨hsync, _⟩ := hs.op_of_busy (by simp [hf])
    obtain rfl : bytes = [commandByte s.req.op] := by
      rcases hbytes with ⟨hop, rfl⟩ | ⟨hop, rfl⟩
      · simp [hop, commandByte, readByte]
      · cases h : s.req.op <;> simp_all [commandByte, writeByte]
    have hexec := exec_phCmd_answered hfit ha hf hsync (hs.csActive_of_unselected (.inr hf))
    rw [afterCmd_permissive] at hexec
    · exact ⟨_, _, hexec, fun c => ⟨fun _ => rfl, by simp [hf], by simp [hf], fun _ => rfl⟩⟩
    · exact hp
  · obtain ⟨hf, hi, rfl, rfl, rfl⟩ : s.fsm = .addr ∧
        (s.geom.aw = 2 ∧ s.addr.bits = 16 ∧ i = .phAddr2 ∨ s.geom.aw = 3 ∧ s.addr.bits = 24 ∧ i = .phAddr3) ∧
        after = .data ∧ desc = ⟨.csNone, .tx, s.addr.bits.toNat⟩ ∧ bytes = latchedBytes s := by
      rcases haddr with ⟨hf, haw, rfl, rfl, rfl, rfl⟩ | ⟨hf, haw, rfl, rfl, rfl, rfl⟩
      all_goals
        obtain ⟨_, _, hbits⟩ := hs.latchedBytes_of_busy (by simp [hf])
        simp [hf, haw, ← BitVec.toNat_inj, hbits, latchedBytes]
    obtain ⟨hsync, _⟩ := hs.op_of_busy (by simp [hf])
    have hexec := exec_phAddr_answered hfit ha hf hsync (hs.csActive_of_selected (.inl hf)) hi
    rw [afterAddr_permissive] at hexec
    · exact ⟨_, _, hexec, fun c => ⟨fun _ => rfl, by simp [hf], by simp [hf], fun _ => rfl⟩⟩
    · exact hp

/-- Settles O40: before DATA either answer leads on and the array stays, so none leads to ABORT; DATA takes its answer without the
policy. -/
theorem permissiveGoesOn : Obligations.PermissiveGoesOn := by
  refine ⟨?_, fun i s t => exec_permissive_ne_abort, fun s t i n hi h => ?_⟩
  · intro s res given rest hs hfit hp ha i after desc bytes hrow
    obtain ⟨cs, f, hexec, hchip⟩ := exec_permissive_before_data hs hfit hp ha hrow
    refine ⟨_, hexec, rfl, rfl, rfl, rfl, rfl, rfl, rfl, rfl, fun hn => ?_, fun c hc => ⟨f c, ?_, hchip c⟩⟩
    · simp [hn]
    · simp [hc]
  · exact exec_data_withPolicy (s := { s with policy := .permissive }) (t := { t with policy := .permissive }) hi .abort h

end Sys2Proof.Machine
end

section
/-!
The configuration operations (R170 to R178): BIND is the claim and the registration made from an unbound block (R172), the release of
a bound block before it (R173), and UNBIND that release alone (R175, R176). The outcome of each part is said once, by the answers of
the collaborators.
-/

namespace Sys2Proof.Machine

/-! ### What BIND runs -/

/-- BIND runs in IDLE alone, whatever the block is bound to (R172, R173). -/
theorem exec_bind_next_iff {v : Variant} {s t : State} :
    exec (.bind v) s = .next t ↔ s.fsm = .idle ∧ claimAndRegister v (unbindFirst (acceptConfig s)) = t := by
  by_cases hf : s.fsm = .idle <;> simp [exec, execBind, State.busy, hf]

theorem exec_bind {v : Variant} {s : State} (hf : s.fsm = .idle) :
    exec (.bind v) s = .next (claimAndRegister v (unbindFirst (acceptConfig s))) :=
  exec_bind_next_iff.2 ⟨hf, rfl⟩

theorem unbindFirst_of_unbound {s : State} (hb : s.bound = false) : unbindFirst s = s := by simp [unbindFirst, hb]

theorem unbindFirst_of_bound {s : State} (hb : s.bound = true) : unbindFirst s = releaseDevice (unregister s) := by
  simp [unbindFirst, hb]

@[simp] theorem unbindFirst_bound (s : State) : (unbindFirst s).bound = false := by
  unfold unbindFirst
  split
  · rfl
  next hb => simpa using hb

/-! ### The claim and the registration, by their answers (R172, R174, R178) -/

section
variable {v : Variant} {s : State} {as rs : List CollabResult} (hf : s.fsm = .idle)
include hf

theorem claimAndRegister_claimFailed (he : s.err = clearedError) (hc : s.claimAnswers = .err :: as) :
    claimAndRegister v s = { s with
      resp := ⟨true, 4, 0, []⟩
      err := ⟨true, 0, 0, 0, 0, 0⟩
      claimAnswers := as
      draws := s.draws + 1
      events := s.events ++ [.claimBus] } := by
  simp [claimAndRegister, claimResult, hc, raise, complete, errorRecord, claimBus, hf, he, clearedError, Status.code,
    CfgOp.code]

theorem claimAndRegister_registryFailed (he : s.err = clearedError) (hc : s.claimAnswers = .ok :: as)
    (hr : s.registryAnswers = .err :: rs) :
    claimAndRegister v s = { s with
      geom := ⟨0, 0⟩
      bound := false
      resp := ⟨true, 5, 0, []⟩
      err := ⟨true, 0, 0, 0, 0, 0⟩
      claimAnswers := as
      registryAnswers := rs
      draws := s.draws + 2
      events := s.events ++ [.claimBus, .register ⟨(variantGeometry v).size, 1, 1, 1⟩, .releaseBus] } := by
  simp [claimAndRegister, claimResult, registryResult, hc, hr, raise, complete, errorRecord, claimBus, register,
    releaseDevice, State.entry, hf, he, clearedError, Status.code, CfgOp.code]

theorem claimAndRegister_ok (hc : s.claimAnswers = .ok :: as) (hr : s.registryAnswers = .ok :: rs) :
    claimAndRegister v s = { s with
      geom := variantGeometry v
      bound := true
      resp := ⟨true, 0, 0, []⟩
      claimAnswers := as
      registryAnswers := rs
      draws := s.draws + 2
      events := s.events ++ [.claimBus, .register ⟨(variantGeometry v).size, 1, 1, 1⟩] } := by
  simp [claimAndRegister, claimResult, registryResult, hc, hr, complete, claimBus, register, State.entry, hf, Status.code]

end

/-! ### BIND -/

/-- The variant table of R174. -/
theorem eq_variantGeometry_of_mem {v : Variant} {g : Geometry}
    (h : (v, g) ∈ [(Variant.mr25h128, Geometry.mk 0x4000 2), (.mr25h256, ⟨0x8000, 2⟩), (.mr25h10, ⟨0x20000, 3⟩),
      (.mr25h40, ⟨0x80000, 3⟩)]) : g = variantGeometry v := by
  simp only [List.mem_cons, List.not_mem_nil, or_false, Prod.mk.injEq] at h
  rcases h with ⟨rfl, rfl⟩ | ⟨rfl, rfl⟩ | ⟨rfl, rfl⟩ | ⟨rfl, rfl⟩ <;> rfl

/-- Settles O28: an unbound block has nothing to release first, so BIND is the claim and the registration. -/
theorem bindWhileUnbound : Obligations.BindWhileUnbound := by
  intro s v g a r as rs hf hb hg hc hr hmem
  obtain rfl := eq_variantGeometry_of_mem hmem
  have hfirst : unbindFirst (acceptConfig s) = acceptConfig s := unbindFirst_of_unbound hb
  have hidle : (acceptConfig s).fsm = .idle := hf
  refine ⟨?_, ?_, ?_⟩
  · rintro rfl
    rw [exec_bind hf, hfirst, claimAndRegister_claimFailed hidle rfl hc]
    rfl
  · rintro rfl rfl
    rw [exec_bind hf, hfirst, claimAndRegister_registryFailed hidle rfl hc hr]
    simp [acceptConfig, hb, hg]
  · rintro rfl rfl
    rw [exec_bind hf, hfirst, claimAndRegister_ok hidle hc hr]
    rfl

/-- Settles O29: what a bound block releases first does not go by the registry's answer, and the claim and the registration follow. -/
theorem bindWhileBoundUnbindsFirst : Obligations.BindWhileBoundUnbindsFirst := by
  intro s v a u r as rs hf hb hc hr
  have hfirst : unbindFirst (acceptConfig s) = releaseDevice (unregister (acceptConfig s)) := unbindFirst_of_bound hb
  have hidle : (releaseDevice (unregister (acceptConfig s))).fsm = .idle := hf
  have hrest : (releaseDevice (unregister (acceptConfig s))).registryAnswers = r :: rs := by simp [hr]
  refine ⟨?_, ?_, ?_⟩
  · rintro rfl
    rw [exec_bind hf, hfirst, claimAndRegister_claimFailed hidle rfl hc]
    simp [releaseDevice, unregister, acceptConfig, State.entry, hr]
  · rintro rfl rfl
    rw [exec_bind hf, hfirst, claimAndRegister_registryFailed hidle rfl hc hrest]
    simp [releaseDevice, unregister, acceptConfig, State.entry]
  · rintro rfl rfl
    rw [exec_bind hf, hfirst, claimAndRegister_ok hidle hc hrest]
    simp [releaseDevice, unregister, acceptConfig, State.entry, clearedError, hb]

/-! ### UNBIND -/

/-- UNBIND runs in IDLE alone, and goes by BOUND (R175, R176). -/
theorem exec_unbind_next_iff {s t : State} :
    exec .unbind s = .next t ↔
      s.fsm = .idle ∧ (if s.bound then unbindBound (acceptConfig s) else complete .ok 0 [] (acceptConfig s)) = t := by
  by_cases hf : s.fsm = .idle <;> simp [exec, execUnbind, State.busy, hf]

@[simp] theorem unbindBound_bound (s : State) : (unbindBound s).bound = false := by
  unfold unbindBound
  split <;> rfl

section
variable {s : State}

theorem exec_unbind_of_bound (hf : s.fsm = .idle) (hb : s.bound = true) :
    exec .unbind s = .next (unbindBound (acceptConfig s)) :=
  exec_unbind_next_iff.2 ⟨hf, if_pos hb⟩

theorem exec_unbind_of_unbound (hf : s.fsm = .idle) (hb : s.bound = false) :
    exec .unbind s = .next (complete .ok 0 [] (acceptConfig s)) :=
  exec_unbind_next_iff.2 ⟨hf, if_neg (by simp [hb])⟩

theorem unbindBound_ok (hr : registryResult s = .ok) :
    unbindBound s = complete .ok 0 [] (releaseDevice (unregister s)) := by simp [unbindBound, hr]

theorem unbindBound_failed (hr : registryResult s = .err) :
    unbindBound s = raise .registryFailure (some .unbind) 0 (releaseDevice (unregister s)) := by simp [unbindBound, hr]

end

/-- Settles O30: a bound block is released whatever the registry answers, which gives only the status and the error record; an
unbound one completes at once. -/
theorem unbindAlwaysUnbinds : Obligations.UnbindAlwaysUnbinds := by
  intro s hf
  refine ⟨fun u rs hr hb => ?_, fun hb => ?_⟩
  · have hanswer : registryResult (acceptConfig s) = u := by simp [registryResult, hr]
    refine ⟨?_, ?_⟩ <;> rintro rfl
    · rw [exec_unbind_of_bound hf hb, unbindBound_ok hanswer]
      simp [complete, releaseDevice, unregister, acceptConfig, State.entry, hr, hf, clearedError, Status.code]
    · rw [exec_unbind_of_bound hf hb, unbindBound_failed hanswer]
      simp [raise, complete, errorRecord, releaseDevice, unregister, acceptConfig, State.entry, hr, hf, clearedError,
        Status.code, CfgOp.code]
  · rw [exec_unbind_of_unbound hf hb]
    simp [complete, acceptConfig, hf, clearedError, Status.code]

/-! ### The writers of the geometry (R177) -/

theorem exec_geometry_cases {i : Instr} {s t : State} (he : exec i s = .next t) :
    (∃ v, i = .bind v) ∨ i = .unbind ∨ (t.geom = s.geom ∧ t.bound = s.bound) := by
  by_cases hp : i.port = .phase
  · obtain ⟨_, _, _, hg, hb, _⟩ := exec_phase_frame hp he
    exact .inr (.inr ⟨hg, hb⟩)
  · obtain ⟨_, _, _, _, _, hkeeps⟩ | ⟨_, rfl⟩ := exec_other hp he
    · exact hkeeps
    · exact .inr (.inr ⟨rfl, rfl⟩)

/-- From the claim on, an unbound block is bound only by loading the variant's geometry. -/
theorem claimAndRegister_isVariant {v : Variant} {s : State} (hs : s.bound = false)
    (hb : (claimAndRegister v s).bound = true) : isVariant (claimAndRegister v s).geom := by
  rcases claimAndRegister_cases v s with h | h | h <;> rw [h] at hb ⊢
  · simp [hs] at hb
  · simp at hb
  · exact isVariant_variantGeometry v

/-- Settles O51: of any state. BIND claims for a block that is unbound by then, and UNBIND leaves BOUND = 0. -/
theorem onlyBindAndUnbindWriteTheGeometry : Obligations.OnlyBindAndUnbindWriteTheGeometry := by
  intro i s t he
  constructor
  · intro hne
    rcases exec_geometry_cases he with hi | hi | ⟨hg, hb⟩
    · exact .inl hi
    · exact .inr hi
    · exact absurd hne (by simp [hg, hb])
  · rintro (⟨v, rfl⟩ | rfl) hb
    · obtain ⟨_, rfl⟩ := exec_bind_next_iff.1 he
      exact claimAndRegister_isVariant (unbindFirst_bound _) hb
    · obtain ⟨_, rfl⟩ := exec_unbind_next_iff.1 he
      cases hs : s.bound <;> simp [hs] at hb

end Sys2Proof.Machine
end

section
/-!
The chip's commands (R190 to R201): what READ, WRITE and WRITE_ENABLE do with a transaction, said once for each. A chip command
instruction (R192), a whole transaction given to the chip, and the DATA phase of a request then follow from them.
-/

namespace Sys2Proof.Machine

/-! ### What a command does with its transaction -/

/-- No data byte, or data bytes that end inside the array (R201). -/
@[simp] theorem dataInArray_iff (g : Geometry) (a n : Nat) :
    dataInArray g a n = true ↔ n = 0 ∨ a + n ≤ g.size.toNat := by
  simp [dataInArray]

/-- The end of an undamaged transaction leaves its health as it is. -/
theorem closeTxn_of_clean {c : Chip} (hh : c.health = .clean) :
    c.closeTxn = { c with txnOpen := false, txn := [], clocked := 0, out := [] } := by
  rw [Chip.closeTxn, ← hh]

theorem splitAddress_incomplete {g : Geometry} {rest : List Byte} (h : rest.length < g.aw.toNat) :
    splitAddress g rest = none := if_pos h

/-- The array after a WRITE answered OK: the data are stored only under the latch (R195, R196). -/
def Chip.storedArray (c : Chip) (a : Nat) (data : List Byte) : List Host.Cell :=
  if c.wel then Memory.writeBytes c.array a data else c.array

theorem Chip.storedArray_of_wel {c : Chip} (hw : c.wel = true) (a : Nat) (data : List Byte) :
    c.storedArray a data = Memory.writeBytes c.array a data := if_pos hw

theorem Chip.storedArray_of_not_wel {c : Chip} (hw : c.wel = false) (a : Nat) (data : List Byte) :
    c.storedArray a data = c.array := by
  simp [Chip.storedArray, hw]

theorem Chip.read_storedArray_at {c : Chip} (hw : c.wel = true) (a : Nat) (data : List Byte) (k : Nat)
    (h : k < data.length) : Memory.read (c.storedArray a data) (a + k) = some data[k] := by
  rw [Chip.storedArray_of_wel hw, memory_read_writeBytes_at]

theorem Chip.read_storedArray_outside (c : Chip) {a x : Nat} (data : List Byte) (h : x < a ∨ a + data.length ≤ x) :
    Memory.read (c.storedArray a data) x = Memory.read c.array x := by
  cases hw : c.wel
  · rw [Chip.storedArray_of_not_wel hw]
  · rw [Chip.storedArray_of_wel hw]
    exact h.elim (memory_read_writeBytes_below _ _) (memory_read_writeBytes_above _ _)

section
variable {g : Geometry} (draw : Nat) {c : Chip} {address data rest : List Byte}

section
variable (hlength : address.length = g.aw.toNat)
include hlength

/-- READ drives the bytes from its address on (R193, R194). -/
theorem chipRead_inside (hin : c.clocked = 0 ∨ beNat address + c.clocked ≤ g.size.toNat) :
    chipRead g draw (address ++ data) c = .ok { c.closeTxn with out := c.bytes (beNat address) c.clocked } := by
  simp [chipRead, splitAddress_append hlength, hin]

theorem chipRead_beyond (hn : 0 < c.clocked) (hout : g.size.toNat < beNat address + c.clocked) :
    chipRead g draw (address ++ data) c = .error .chipAddressBeyondArray := by
  have hin : dataInArray g (beNat address) c.clocked = false := by
    rw [Bool.eq_false_iff, ne_eq, dataInArray_iff]
    omega
  simp [chipRead, splitAddress_append hlength, hin]

/-- WRITE stores under the latch and clears it (R195, R196). -/
theorem chipWrite_inside (hin : data = [] ∨ beNat address + data.length ≤ g.size.toNat) :
    chipWrite g draw (address ++ data) c =
      .ok { c.closeTxn with array := c.storedArray (beNat address) data, wel := false } := by
  have hdata : dataInArray g (beNat address) data.length = true := by simpa using hin
  cases hw : c.wel
  · simp [chipWrite, splitAddress_append hlength, hdata, hw, Chip.storedArray, Chip.closeTxn]
  · simp [chipWrite, splitAddress_append hlength, hdata, hw, Chip.storedArray]

theorem chipWrite_beyond (hd : data ≠ []) (hout : g.size.toNat < beNat address + data.length) :
    chipWrite g draw (address ++ data) c = .error .chipAddressBeyondArray := by
  have hin : dataInArray g (beNat address) data.length = false := by
    rw [Bool.eq_false_iff, ne_eq, dataInArray_iff, List.length_eq_zero_iff]
    exact not_or.2 ⟨hd, Nat.not_le.2 hout⟩
  simp [chipWrite, splitAddress_append hlength, hin]

end

/-- Before its last address byte a READ drives free values (log entry 15). -/
theorem chipRead_incomplete (h : rest.length < g.aw.toNat) :
    chipRead g draw rest c =
      .ok { c.closeTxn with out := (List.range c.clocked).map fun k => Config.freeRxByte draw k } := by
  simp [chipRead, splitAddress_incomplete h, fitBytes]

/-- Before its last address byte a WRITE leaves the latch with any value (R197 (a), (c)). -/
theorem chipWrite_incomplete (h : rest.length < g.aw.toNat) :
    chipWrite g draw rest c = .ok { c.closeTxn with wel := Config.freeWel draw } := by
  simp [chipWrite, splitAddress_incomplete h]

variable (g)

theorem chipWren_alone (hn : c.clocked = 0) : chipWren g draw [] c = .ok { c.closeTxn with wel := true } :=
  if_pos ⟨rfl, hn⟩

theorem chipWren_longer (h : rest ≠ [] ∨ 0 < c.clocked) : chipWren g draw rest c = .error .unknownChipCommand :=
  if_neg fun ⟨hrest, hn⟩ => h.elim (· hrest) fun hpos => by omega

end

/-! ### The command instructions -/

section
variable {b : Byte} {act : Geometry → Nat → List Byte → Chip → Except Fault Chip} {s : State} {c : Chip} {rest : List Byte}
  (hc : s.chip = some c) (ho : c.txnOpen = true) (hh : c.health = .clean) (htxn : c.txn = b :: rest)
include hc ho hh htxn

/-- A command that the chip has a meaning for, on the undamaged transaction that starts with it (R192). -/
theorem chipCommand_of_ok {c' : Chip} (h : act (chipGeometry s c) s.draws rest c = .ok c') :
    chipCommand b act s = .next { s with chip := some c', draws := s.draws + 1 } := by
  simp [chipCommand, hc, ho, hh, htxn, h]

theorem chipCommand_of_error {f : Fault} (h : act (chipGeometry s c) s.draws rest c = .error f) :
    chipCommand b act s = .fault f := by
  simp [chipCommand, hc, ho, hh, htxn, h]

end

/-- Settles O44: READ with its whole address drives the array's bytes. -/
theorem chipReadDrivesTheArray : Obligations.ChipReadDrivesTheArray := by
  rintro s c _ hc ho hh htxn g address more rfl hlength hin
  have hexec : exec .cmdRead s = _ := chipCommand_of_ok hc ho hh htxn (chipRead_inside s.draws hlength hin)
  rw [hexec, closeTxn_of_clean hh]
  rfl

/-- Settles O45: READ without its whole address drives free values. -/
theorem chipReadBeforeTheAddress : Obligations.ChipReadBeforeTheAddress := by
  intro s c rest hc ho hh htxn hlength
  have hexec : exec .cmdRead s = _ := chipCommand_of_ok hc ho hh htxn (chipRead_incomplete s.draws hlength)
  rw [hexec, closeTxn_of_clean hh]

/-- Settles O46: WRITE with its whole address stores under the latch, and without it leaves the latch free. -/
theorem chipWriteStoresUnderTheLatch : Obligations.ChipWriteStoresUnderTheLatch := by
  refine ⟨fun s c address data hc ho hh htxn hlength hin => ?_, fun s c rest hc ho hh htxn hlength => ?_⟩
  · have hexec : exec .cmdWrite s = _ := chipCommand_of_ok hc ho hh htxn (chipWrite_inside s.draws hlength hin)
    refine ⟨c.storedArray (beNat address) data, ?_, fun hw => Chip.read_storedArray_at hw _ _,
      fun _ => c.read_storedArray_outside data, fun hw => Chip.storedArray_of_not_wel hw _ _⟩
    rw [hexec, closeTxn_of_clean hh]
  · have hexec : exec .cmdWrite s = _ := chipCommand_of_ok hc ho hh htxn (chipWrite_incomplete s.draws hlength)
    rw [hexec, closeTxn_of_clean hh]

/-- Settles O47: WRITE_ENABLE alone in its transaction sets the latch. -/
theorem chipWriteEnableSetsTheLatch : Obligations.ChipWriteEnableSetsTheLatch := by
  intro s c hc ho hh htxn hn
  have hexec : exec .cmdWren s = _ := chipCommand_of_ok hc ho hh htxn (chipWren_alone _ s.draws hn)
  rw [hexec, closeTxn_of_clean hh]

/-! ### A whole transaction given to the chip -/

/-- The chip when a whole transaction has been given to it, every phase answered OK. -/
def Chip.givenTxn (c : Chip) (bytes : List Byte) (n : Nat) : Chip := { c.openTxn with txn := bytes, clocked := n }

section
variable {s : State} {c : Chip} {b : Byte} {bytes : List Byte} {n : Nat} {rest : List EnvAction} (hf : s.fsm = .idle)
  (hc : s.chip = some c) (hag : s.agenda = .wire (b :: bytes) n :: rest)
include hf hc hag

theorem step_wire {i : Instr} (hi : decodeCommand b = .ok i) :
    step s = exec i { s with agenda := rest, chip := some (c.givenTxn (b :: bytes) n) } :=
  step_run (by simp [fetch, hag, State.busy, hf, fetchWire, hc, hi, Chip.givenTxn])

theorem step_wire_unknown {e : Reject} (hi : decodeCommand b = .error e) : step s = .fault .unknownChipCommand :=
  step_done (by simp [fetch, hag, State.busy, hf, fetchWire, hc, hi])

/-- A transaction that its command has no meaning for faults. -/
theorem step_wire_fault {i : Instr} {act : Geometry → Nat → List Byte → Chip → Except Fault Chip} {f : Fault}
    (hi : decodeCommand b = .ok i) (hexec : ∀ t, exec i t = chipCommand b act t)
    (hact : act (c.geom.getD s.geom) s.draws bytes (c.givenTxn (b :: bytes) n) = .error f) : step s = .fault f := by
  rw [step_wire hf hc hag hi, hexec]
  exact chipCommand_of_error (c := c.givenTxn (b :: bytes) n) rfl rfl rfl rfl hact

end

/-- Settles O11: the command of the first byte runs. -/
theorem stepRunsTheChipCommand : Obligations.StepRunsTheChipCommand := by
  intro s rest c b bytes n i hf hag hc hi
  exact step_wire hf hc hag ((decode_command b).symm.trans hi)

/-- Settles O48: no command, WRITE_ENABLE with more bytes, and data beyond the array. -/
theorem chipFaultsOnMeaninglessTransactions : Obligations.ChipFaultsOnMeaninglessTransactions := by
  intro s c b bytes n rest hf hc hag
  refine ⟨fun hw hr he => ?_, ?_, ?_⟩
  · exact step_wire_unknown hf hc hag (decodeCommand_reserved hr hw he)
  · rintro rfl hlong
    exact step_wire_fault hf hc hag rfl (fun _ => rfl) (chipWren_longer _ _ hlong)
  · rintro address data rfl hlength
    refine ⟨?_, ?_⟩ <;> rintro rfl hsome hout
    · exact step_wire_fault hf hc hag rfl (fun _ => rfl) (chipWrite_beyond _ hlength hsome hout)
    · exact step_wire_fault hf hc hag rfl (fun _ => rfl) (chipRead_beyond _ hlength hsome hout)

/-! ### The chip's part of a DATA phase -/

/-- The DATA phase of an undamaged WRITE, answered OK, is the chip's WRITE of the data sent (R195, R196). -/
theorem chipPhase_write_ok {g : Geometry} (k n : Nat) {c : Chip} {address data : List Byte} (hh : c.health = .clean)
    (htxn : c.txn = writeByte :: address) (hlength : address.length = g.aw.toNat)
    (hin : beNat address + data.length ≤ g.size.toNat) :
    chipPhase g k ⟨.csEnd, .tx, n⟩ data .ok c =
      .ok { c.closeTxn with array := c.storedArray (beNat address) data, wel := false } := by
  have hcmd : writeByte ≠ readByte := by decide
  simp only [chipPhase, chipAct, hh, htxn, List.cons_append, reduceIte, hcmd]
  exact chipWrite_inside k hlength (.inr hin)

/-- Answered BusError it leaves the target and the latch free (R197 (b)). -/
theorem chipPhase_write_failed {g : Geometry} (k n : Nat) (data : List Byte) {c : Chip} {address : List Byte}
    (hh : c.health = .clean) (htxn : c.txn = writeByte :: address) (hlength : address.length = g.aw.toNat) :
    chipPhase g k ⟨.csEnd, .tx, 8 * n⟩ data .busError c =
      .ok { (chipSmear g k (beNat address) n c).closeTxn with wel := Config.freeWel k } := by
  simp [chipPhase, chipDataFailed, hh, htxn, splitAddress_exact hlength]

/-- A target inside the array is free in every byte (R197 (b)). -/
theorem chipSmear_byte_at {g : Geometry} (draw : Nat) {a n k : Nat} (c : Chip) (hin : a + n ≤ g.size.toNat) (hk : k < n) :
    (chipSmear g draw a n c).byte (a + k) = Config.freeArrayByte draw (a + k) := by
  rw [chipSmear, chip_byte_writeBytes_at c a _ k (by simp; omega)]
  simp

theorem chipScramble_byte (draw : Nat) (c : Chip) (x : Nat) : (chipScramble draw c).byte x = Config.freeArrayByte draw x :=
  rfl

/-- The DATA phase of a damaged transaction leaves all of the chip's contents free, whatever its answer (R197 (f)). -/
theorem chipPhase_data_damaged (g : Geometry) (k n : Nat) {dir : Direction} (tx : List Byte) (res : PhaseResult) {c : Chip}
    (hdir : dir = .tx ∨ dir = .rx) (hh : c.health ≠ .clean) :
    chipPhase g k ⟨.csEnd, dir, n⟩ tx res c = .ok (chipScramble k c) := by
  rcases hdir with rfl | rfl <;> exact if_neg hh

/-! ### The DATA phase of a request -/

theorem exec_phDataTx_answered {s : State} {res : PhaseResult} {given : List Byte} {rest : List BusAnswer}
    {chip : Option Chip} (hfit : ChipFits s) (ha : s.busAnswers = .answered res given :: rest) (hf : s.fsm = .data)
    (hop : s.req.op = .write ∨ s.req.op = .erase) (hcs : s.csActive = true)
    (hdata : s.req.data.length = s.req.length.toNat)
    (hc : chipAfter ⟨.csEnd, .tx, 8 * s.req.length.toNat⟩ s.req.data res s = .ok chip) :
    exec (.phDataTx (8 * s.req.length.toNat)) s = .next (afterDataTx res [] { s with
      csActive := false
      outstanding := false
      busAnswers := rest
      draws := s.draws + 1
      trace := s.trace ++ [⟨⟨.csEnd, .tx, 8 * s.req.length.toNat⟩, s.req.data, res, []⟩]
      chip := chip }) := by
  have hd : phaseDesc s = some ⟨.csEnd, .tx, 8 * s.req.length.toNat⟩ := by
    rcases hop with hop | hop <;> simp [phaseDesc, hf, hop]
  refine (inTurn_of_phaseDesc hd rfl _).trans (issue_eq_of_no_rx afterDataTx (by simp) ?_ hfit ha hc rfl)
  simp [phaseFault_none_iff, hcs, framingLegal, framingBegins, hdata]

/-- After DATA the request is complete, by the answer alone (R145). -/
theorem afterData_completes {go : PhaseResult → List Byte → State → State} (hgo : go = afterDataRx ∨ go = afterDataTx)
    (res : PhaseResult) (rx : List Byte) (s : State) :
    (go res rx s).chip = s.chip ∧ (go res rx s).fsm = .idle ∧
      (res = .ok → (go res rx s).resp.status = 0 ∧ (go res rx s).resp.retlen = s.req.length ∧ (go res rx s).err = s.err) ∧
      (res = .busError → (go res rx s).resp.status = 2 ∧ (go res rx s).resp.retlen = 0 ∧ (go res rx s).resp.rdata = [] ∧
        (go res rx s).err.phase = 4) := by
  rcases hgo with rfl | rfl <;> cases res <;>
    exact ⟨rfl, rfl, by rintro ⟨⟩ <;> exact ⟨rfl, rfl, rfl⟩, by rintro ⟨⟩ <;> exact ⟨rfl, rfl, rfl, rfl⟩⟩

/-- Settles O38: the chip's part is the WRITE of the request's data, or the failed one. -/
theorem dataPhaseOfWriteOnTheChip : Obligations.DataPhaseOfWriteOnTheChip := by
  intro s c address res given rest hf hop hcs hc hg hh htxn hlength hdata hin ha
  have hdone {c' : Chip}
      (hphase : chipPhase s.geom s.draws ⟨.csEnd, .tx, 8 * s.req.length.toNat⟩ s.req.data res c = .ok c') :
      (∃ t, exec (.phDataTx (8 * s.req.length.toNat)) s = .next t ∧ t.chip = some c') ∧
        ∀ x, x < beNat address ∨ beNat address + s.req.length.toNat ≤ x → c'.byte x = c.byte x := by
    have hexec := exec_phDataTx_answered (chipFits_of_geom hc hg) ha hf hop hcs hdata (chipAfter_of_bound hc hg hphase)
    obtain ⟨hchip, _⟩ := afterData_completes (.inr rfl) res [] _
    exact ⟨⟨_, hexec, hchip⟩, fun _ => chipPhase_write_outside hh htxn hlength hdata hphase⟩
  cases res with
  | ok =>
    obtain ⟨⟨t, hexec, hchip⟩, houtside⟩ := hdone (chipPhase_write_ok _ _ hh htxn hlength (hdata ▸ hin))
    refine ⟨t, _, hexec, hchip, rfl, rfl, houtside, fun _ => rfl, fun _ hw k hk => ?_, fun _ hw x => ?_, nofun, nofun⟩
    · simp [Chip.byte, Chip.read_storedArray_at hw _ _ k hk]
    · simp [Chip.byte, Chip.storedArray_of_not_wel hw, Chip.closeTxn]
  | busError =>
    obtain ⟨⟨t, hexec, hchip⟩, houtside⟩ := hdone (chipPhase_write_failed _ _ _ hh htxn hlength)
    exact ⟨t, _, hexec, hchip, rfl, rfl, houtside, nofun, nofun, nofun, fun _ k => chipSmear_byte_at s.draws c hin,
      fun _ => rfl⟩

/-- Before DATA a request that does not read stores, and REQ_DATA holds as many bytes as it stores (R31). -/
theorem StateInv.store_of_data {s : State} (hs : StateInv s) (hf : s.fsm = .data) (hread : s.req.op ≠ .read) :
    (s.req.op = .write ∨ s.req.op = .erase) ∧ s.req.data.length = s.req.length.toNat := by
  obtain ⟨hsync, _, hdata⟩ := hs.op_of_busy (by simp [hf])
  rw [hdata]
  cases hop : s.req.op
  case read => exact absurd hop hread
  case sync => exact absurd hop hsync
  all_goals simp [dataCount, hop]

/-- The DATA phase of a damaged transaction scrambles the chip, and the block goes on from the answer (R148 (d), R197 (f)). -/
theorem StateInv.exec_data_damaged {s : State} {c : Chip} {i : Instr} {res : PhaseResult} {given : List Byte}
    {rest : List BusAnswer} (hs : StateInv s) (hf : s.fsm = .data) (hc : s.chip = some c) (hh : c.health ≠ .clean)
    (ha : s.busAnswers = .answered res given :: rest)
    (hi : (s.req.op = .read ∧ i = .phDataRx (8 * s.req.length.toNat)) ∨
      (s.req.op ≠ .read ∧ i = .phDataTx (8 * s.req.length.toNat))) :
    ∃ go rx u, (go = afterDataRx ∨ go = afterDataTx) ∧ exec i s = .next (go res rx u) ∧
      u.chip = some (chipScramble s.draws c) ∧ u.req = s.req ∧ u.err = s.err := by
  have hcs := hs.csActive_of_selected (.inr (.inl hf))
  have hg := hs.chip_geom_of_selected (.inr (.inl hf)) hc
  have hfit := chipFits_of_geom hc hg
  rcases hi with ⟨hread, rfl⟩ | ⟨hread, rfl⟩
  · exact ⟨_, _, _, .inl rfl, exec_phDataRx_answered hfit ha hf hread hcs
      (chipAfter_of_bound hc hg (chipPhase_data_damaged _ _ _ _ _ (.inr rfl) hh)) rfl, rfl, rfl, rfl⟩
  · obtain ⟨hop, hdata⟩ := hs.store_of_data hf hread
    exact ⟨_, _, _, .inr rfl, exec_phDataTx_answered hfit ha hf hop hcs hdata
      (chipAfter_of_bound hc hg (chipPhase_data_damaged _ _ _ _ _ (.inl rfl) hh)), rfl, rfl, rfl⟩

/-- Settles O43: the chip is scrambled, and the block completes by the answer alone. -/
theorem continuedTransactionLeavesAnyArray : Obligations.ContinuedTransactionLeavesAnyArray := by
  intro s c i res given rest hs hf hc hh ha hi
  obtain ⟨go, rx, u, hgo, hexec, hchip, hreq, herr⟩ := hs.exec_data_damaged hf hc hh ha hi
  obtain ⟨hsame, hidle, hok, hfailed⟩ := afterData_completes hgo res rx u
  exact ⟨_, _, hexec, hsame.trans hchip, chipScramble_byte _ _, rfl, hidle, by rwa [hreq, herr] at hok, hfailed⟩

end Sys2Proof.Machine
end

section
/-!
A request beyond the end of the device (R58, R131, R214): the width is checked first (R220), and the start of the transfer then ends
in the bounds check.
-/

namespace Sys2Proof.Machine

/-- A transfer whose width the encoder takes and whose bytes run past GEOM_SIZE ends in the bounds check (R132, R214). -/
theorem startTransfer_of_outOfBounds {s : State} (hw : s.geom.aw = 2 ∨ s.geom.aw = 3)
    (hout : s.geom.size.toNat < s.req.offset.toNat + s.req.length.toNat) :
    startTransfer s = raise .outOfBounds none 0 s := by
  obtain ⟨_, _, he⟩ := exists_encodeAddr_ok s.req.offset hw
  have hin : inBounds s.req.offset s.req.length s.geom = false := by
    rw [Bool.eq_false_iff, ne_eq, inBounds_iff]
    exact Nat.not_le.2 hout
  simp [startTransfer, he, hin]

/-- Settles O25: a presented transfer is accepted and started, and the start ends in the bounds check. -/
theorem outOfBoundsIssuesNoPhase : Obligations.OutOfBoundsIssuesNoPhase := by
  intro s op o l data i hi hp hw hout
  obtain ⟨htaken, hdata⟩ := hp.taken
  have hstart := startTransfer_of_outOfBounds (s := acceptRequest op o l s) hw hout
  rw [exec_transfers hi htaken, hstart, raise_acceptRequest _ _ hp.1, hdata]
  rfl

end Sys2Proof.Machine
end

section
/-!
What can fault (R230). Requests and configuration operations are refused or give a next state. A phase faults when the bus engine or
the chip has no meaning for it, whatever the agenda, and both have one for the phase that a sound busy block issues. So of the
environment's actions only a register read and a whole transaction for the chip are left.
-/

namespace Sys2Proof.Machine

/-! ### Requests and configuration operations -/

theorem exec_request_ne_fault {i : Instr} {s : State} {f : Fault} (hp : i.port = .request) : exec i s ≠ .fault f := by
  intro h
  cases i <;> try (cases hp; done)
  case read o l | write o l | erase o l | zfill o l =>
    simp only [exec, execRead, execWrite, execErase, execZfill] at h
    split at h <;> cases h
  case sync o l | invalidRequest op r o l =>
    simp only [exec, execSync, execInvalidRequest] at h
    split at h <;> cases h

theorem exec_config_ne_fault {i : Instr} {s : State} {f : Fault} (hp : i.port = .config) : exec i s ≠ .fault f := by
  intro h
  cases i <;> try (cases hp; done)
  case bind v | unbind | invalidConfig op v r =>
    simp only [exec, execBind, execUnbind, execInvalidConfig] at h
    split at h <;> cases h

/-! ### Phases -/

/-- An issued phase faults by the bus engine's checks, or, with the bound chip attached, by the chip's part of an answer. -/
theorem issue_fault_iff {d : PhaseDesc} {tx : List Byte} {go : PhaseResult → List Byte → State → State} {s : State}
    {f : Fault} :
    issue d tx go s = .fault f ↔
      phaseFault d tx s = some f ∨
        phaseFault d tx s = none ∧ chipMismatch s = false ∧
          ∃ res given, nextBusAnswer s = .answered res given ∧ chipAfter d tx res s = .error f := by
  unfold issue
  cases phaseFault d tx s with
  | some g => simp
  | none =>
    cases chipMismatch s with
    | true => simp
    | false =>
      cases nextBusAnswer s with
      | silent => simp
      | answered res given => cases h : chipAfter d tx res s <;> simp [h]

/-- Whether a phase instruction faults does not go by the agenda. -/
theorem exec_phase_fault_withAgenda {i : Instr} {s : State} {f : Fault} (agenda : List EnvAction) (hp : i.port = .phase)
    (h : exec i s = .fault f) : exec i { s with agenda := agenda } = .fault f := by
  have hturn {d : PhaseDesc} {tx : List Byte} {go : PhaseResult → List Byte → State → State}
      (h : inTurn i s (issue d tx go s) = .fault f) :
      inTurn i { s with agenda := agenda } (issue d tx go { s with agenda := agenda }) = .fault f := by
    by_cases hw : phaseWord s = some (encode i)
    · rw [inTurn, if_pos hw] at h
      have hcause := issue_fault_iff.1 h
      exact (if_pos hw).trans (issue_fault_iff.2 hcause)
    · rw [inTurn, if_neg hw] at h
      exact (if_neg hw).trans h
  cases i <;> try (cases hp; done)
  all_goals exact hturn h

/-- Without a mismatch the attached chip is the bound one, or has not been reached yet (R244). -/
theorem chipFits_of_not_mismatch {s : State} (hm : chipMismatch s = false) : ChipFits s := by
  intro c hc
  have hg := chipGeometry_of_not_mismatch hm hc
  cases h : c.geom with
  | none => exact .inl rfl
  | some g => exact .inr (congrArg some (by simpa [chipGeometry, h] using hg))

/-- The phase that a sound busy block issues does not fault (R124, R201). -/
theorem Issues.step_ne_fault {s : State} {d : PhaseDesc} {tx : List Byte}
    {go : PhaseResult → List Byte → State → State} {f : Fault} (h : Issues s d tx go) : step s ≠ .fault f := by
  rw [h.step_eq, ne_eq, issue_fault_iff, h.no_fault]
  rintro (hbus | ⟨_, hm, res, _, _, hchip⟩)
  · cases hbus
  · obtain ⟨_, hok⟩ := h.exists_chipAfter (chipFits_of_not_mismatch hm) res
    cases hok.symm.trans hchip

/-! ### The block's own move -/

/-- A sound block's own move does nothing in IDLE, and otherwise issues a phase that does not fault. -/
theorem StateInv.fetchPhase_cases {s : State} (hs : StateInv s) :
    fetchPhase s = .done (.next s) ∨ ∃ i, fetchPhase s = .run i s ∧ ∀ f, exec i s ≠ .fault f := by
  by_cases hf : s.fsm = .idle
  · exact .inl (by simp [fetchPhase, hf])
  obtain ⟨⟨h6, h7, _⟩, _⟩ := id hs
  obtain ⟨w, i, hw, hd, _⟩ := thePhaseMapGivesOneInstruction s hs hf
  refine .inr ⟨i, fetchPhase_of_phaseWord hf h6 h7 hw hd, fun f hfault => ?_⟩
  -- with nothing listed the step is that phase
  obtain ⟨_, _, _, hissues⟩ := exists_issues (s := { s with agenda := [] }) hs trivial hf
  have hrun : fetch { s with agenda := [] } = .run i { s with agenda := [] } := fetchPhase_of_phaseWord hf h6 h7 hw hd
  exact hissues.step_ne_fault ((step_run hrun).trans (exec_phase_fault_withAgenda [] (decodePhase_port hd) hfault))

theorem step_ne_fault_of_fetchPhase {s u : State} {f : Fault} (hu : StateInv u) (h : fetch s = fetchPhase u) :
    step s ≠ .fault f := by
  rcases hu.fetchPhase_cases with hnext | ⟨i, hrun, hexec⟩
  · rw [step_done (h.trans hnext)]
    nofun
  · rw [step_run (h.trans hrun)]
    exact hexec f

/-- Settles O50: by the action listed next. A request or configuration operation runs in IDLE and waits while BUSY, when the step is
the block's own move, as it is with nothing listed or a pause; a reset and a power cycle give a next state. -/
theorem soundStatesDoNotFault : Obligations.SoundStatesDoNotFault := by
  intro s f hs h
  have hmove {u : State} (hu : StateInv u) (hfetch : fetch s = fetchPhase u) : False :=
    step_ne_fault_of_fetchPhase hu hfetch h
  have hbusy (hw : Waits s.agenda) (hf : s.fsm ≠ .idle) : False := hmove hs (fetch_of_waits hw hf)
  cases hag : s.agenda with
  | nil => exact (hmove hs (by simp [fetch, hag])).elim
  | cons a rest =>
    cases a with
    | readReg r => exact ⟨rest, .inl ⟨r, rfl⟩⟩
    | wire bytes n => exact ⟨rest, .inr ⟨bytes, n, rfl⟩⟩
    | pause => exact (hmove (u := { s with agenda := rest }) hs (by simp [fetch, hag])).elim
    | reset | powerCycle =>
      simp only [step, fetch, hag] at h
      cases h
    | request d w =>
      by_cases hf : s.fsm = .idle
      · rw [(stepRunsThePresentedOperation s rest hf).1 d w hag] at h
        exact absurd h (exec_request_ne_fault (decodeRequest_port d))
      · exact (hbusy (by simp [hag, Waits]) hf).elim
    | config d =>
      by_cases hf : s.fsm = .idle
      · rw [(stepRunsThePresentedOperation s rest hf).2 d hag] at h
        exact absurd h (exec_config_ne_fault (decodeConfig_port d))
      · exact (hbusy (by simp [hag, Waits]) hf).elim

end Sys2Proof.Machine
end

section
/-!
Reset (R240, R241): the step that resets, and what the record and the chip's open transaction are after it. A reset ends the
transaction as a failed phase does (R197); an outstanding phase has failed before it (log entry 26).
-/

namespace Sys2Proof.Machine

/-! ### The step -/

theorem step_reset {s : State} {rest : List EnvAction} (h : s.agenda = .reset :: rest) :
    step s = .next (resetBlock { s with agenda := rest }) := step_done (by simp [fetch, h])

theorem step_powerCycle {s : State} {rest : List EnvAction} (h : s.agenda = .powerCycle :: rest) :
    step s = .next (cyclePower { s with agenda := rest }) := step_done (by simp [fetch, h])

/-- Settles O1: each field of State.reset. -/
theorem resetLeavesTheStatedRecord : Obligations.ResetLeavesTheStatedRecord :=
  ⟨rfl, rfl, rfl, rfl, rfl, rfl, rfl, rfl, rfl⟩

/-- Settles O2: the step is the reset, which writes State.reset's record and keeps the trace, the policy and the agenda's rest. -/
theorem resetAbandonsTheRequest : Obligations.ResetAbandonsTheRequest := fun _ _ h =>
  ⟨_, step_reset h, rfl, rfl, rfl, rfl, rfl, rfl, rfl, rfl, rfl, rfl, rfl, rfl⟩

/-! ### How the chip's transaction ends -/

section
variable {g : Geometry} {k n : Nat} {c : Chip}

theorem chipAtReset_of_closed (ho : c.txnOpen = false) : chipAtReset g k n c = c := by simp [chipAtReset, ho]

section
variable (ho : c.txnOpen = true)
include ho

theorem chipAtReset_of_clean (hh : c.health = .clean) : chipAtReset g k n c = chipDataFailed g k n c := by
  simp [chipAtReset, ho, hh]

theorem chipAtReset_of_failed (hh : c.health = .failed) : chipAtReset g k n c = chipAbandon k c := by
  simp [chipAtReset, ho, hh]

theorem chipAtReset_of_continued (hh : c.health = .continued) : chipAtReset g k n c = chipScramble k c := by
  simp [chipAtReset, ho, hh]

end

/-- A failed READ only ends (R197 (e)). -/
theorem chipDataFailed_read_frame {bytes : List Byte} (htxn : c.txn = readByte :: bytes) :
    (chipDataFailed g k n c).wel = c.wel ∧ ∀ x, (chipDataFailed g k n c).byte x = c.byte x := by
  have hclose : chipDataFailed g k n c = c.closeTxn := by simp [chipDataFailed, htxn, readByte, writeByte]
  rw [hclose]
  exact ⟨rfl, fun _ => rfl⟩

/-- A WRITE that failed before its last address byte has no target (R197 (a)). -/
theorem chipDataFailed_byte_of_incomplete {bytes : List Byte} (htxn : c.txn = writeByte :: bytes)
    (hlength : bytes.length < g.aw.toNat) (x : Nat) : (chipDataFailed g k n c).byte x = c.byte x := by
  simp [chipDataFailed, htxn, splitAddress_incomplete hlength, chipAbandon_byte]

/-- A failed DATA phase reaches no byte outside its target (R197 (b)). -/
theorem chipDataFailed_byte_outside {b : Byte} {address : List Byte} {x : Nat} (htxn : c.txn = b :: address)
    (hlength : address.length = g.aw.toNat) (hx : x < beNat address ∨ beNat address + n ≤ x) :
    (chipDataFailed g k n c).byte x = c.byte x := by
  simp only [chipDataFailed, htxn, splitAddress_exact hlength]
  split
  · refine chip_byte_writeBytes_outside c _ (hx.imp_right fun hx => le_trans ?_ hx)
    simp
  · rfl

/-- Of a READ that has not gone on after a failure, a reset leaves the array and the latch (R197 (a), (e)). -/
theorem chipAtReset_read_frame {bytes : List Byte} (hh : c.health ≠ .continued) (htxn : c.txn = readByte :: bytes) :
    (chipAtReset g k n c).wel = c.wel ∧ ∀ x, (chipAtReset g k n c).byte x = c.byte x := by
  cases ho : c.txnOpen with
  | false => simp [chipAtReset_of_closed ho]
  | true =>
    cases h : c.health with
    | clean =>
      rw [chipAtReset_of_clean ho h]
      exact chipDataFailed_read_frame htxn
    | failed =>
      rw [chipAtReset_of_failed ho h]
      exact ⟨chipAbandon_wel_of_read k htxn, chipAbandon_byte k c⟩
    | continued => exact absurd h hh

/-- The latch after a request's transaction that ended before its last address byte (R197 (a), (c)). -/
theorem chipAbandon_wel_of_command (k : Nat) {op : ReqOp} {bytes : List Byte} (hop : op ≠ .sync)
    (htxn : c.txn = commandByte op :: bytes) :
    (op = .read → (chipAbandon k c).wel = c.wel) ∧ (op ≠ .read → (chipAbandon k c).wel = Config.freeWel k) := by
  cases op
  case read => exact ⟨fun _ => chipAbandon_wel_of_read k htxn, nofun⟩
  case sync => exact absurd rfl hop
  all_goals exact ⟨nofun, fun _ => by simp [chipAbandon, htxn, commandByte]⟩

end

/-! ### The chip that a reset meets -/

/-- The attached chip stays attached: with a phase outstanding it has seen that phase fail. -/
theorem exists_chipInterrupted {s : State} {c : Chip} (hc : s.chip = some c) : ∃ c₁, chipInterrupted s = some c₁ := by
  rcases chipInterrupted_cases s with h | ⟨d, _, _, h⟩
  · exact ⟨c, h.trans hc⟩
  · rcases chipAfter_ok h with ⟨hn, _⟩ | ⟨_, c₁, _, h₁, _⟩
    · cases hn.symm.trans hc
    · exact ⟨c₁, h₁⟩

theorem resetBlock_chip {s : State} {c : Chip} (h : chipInterrupted s = some c) :
    (resetBlock s).chip = some (chipAtReset (chipGeometry s c) s.draws s.req.length.toNat c) := by
  simp [resetBlock, h]

section
variable {s : State} {c c₁ : Chip} {d : PhaseDesc} (ho : s.outstanding = true) (hc : s.chip = some c)
  (hd : phaseDesc s = some d)
  (hp : chipPhase (chipGeometry s c) s.draws d (phasePayload s) .busError { c with geom := some (chipGeometry s c) } =
    .ok c₁)
include ho hc hd hp

/-- The outstanding phase, answered BusError, and then the reset. -/
theorem resetBlock_chip_of_phase :
    (resetBlock s).chip = some (chipAtReset (chipGeometry s c₁) s.draws s.req.length.toNat c₁) :=
  resetBlock_chip (by simp [chipInterrupted, ho, hd, chipAfter, hc, hp])

/-- A phase that ends the transaction leaves the reset nothing to end. -/
theorem resetBlock_chip_of_end (he : framingEnds d.framing = true) : (resetBlock s).chip = some c₁ := by
  rw [resetBlock_chip_of_phase ho hc hd hp, chipAtReset_of_closed (chipPhase_end hp he)]

end

/-! ### An outstanding phase, by the state that has issued it -/

/-- DATA of a sound block ends the transaction and moves the request's bytes, in the direction of its operation (R145). -/
theorem StateInv.phaseDesc_data {s : State} (hs : StateInv s) (hf : s.fsm = .data) :
    ∃ dir, (dir = .tx ∨ dir = .rx) ∧ phaseDesc s = some ⟨.csEnd, dir, 8 * s.req.length.toNat⟩ := by
  by_cases hop : s.req.op = .read
  · exact ⟨_, .inr rfl, phaseDesc_data_read hf hop⟩
  · exact ⟨_, .inl rfl, hs.phaseDesc_data_store hf hop⟩

/-- A DATA phase of an undamaged transaction, answered BusError, whatever its direction (R197 (b), (e)). -/
theorem chipPhase_data_failed (g : Geometry) (k n : Nat) {dir : Direction} (tx : List Byte) {c : Chip}
    (hdir : dir = .tx ∨ dir = .rx) (hh : c.health = .clean) :
    chipPhase g k ⟨.csEnd, dir, 8 * n⟩ tx .busError c = .ok (chipDataFailed g k n c) := by
  rcases hdir with rfl | rfl <;> simp [chipPhase, hh]

theorem TxnHealth.after_of_damaged {h : TxnHealth} (hh : h ≠ .clean) (res : PhaseResult) : h.after res = .continued := by
  cases h
  case clean => exact absurd rfl hh
  all_goals rfl

section
variable {s : State} {c c' : Chip} (hs : StateInv s) (ho : s.outstanding = true) (hc : s.chip = some c)
include hs ho hc

/-- A failed ADDR leaves the transaction open for the reset to end. -/
theorem resetBlock_chip_addr (hf : s.fsm = .addr) :
    (resetBlock s).chip = some (chipAtReset s.geom s.draws s.req.length.toNat (chipAfterAddr s .busError c)) := by
  have hg : chipGeometry s c = s.geom := by simp [chipGeometry, hs.chip_geom_of_selected (.inl hf) hc]
  obtain ⟨n, hd⟩ : ∃ n, phaseDesc s = some ⟨.csNone, .tx, n⟩ := by
    rcases hs.phaseDesc_addr hf with ⟨_, hd⟩ | ⟨_, hd⟩ <;> exact ⟨_, hd⟩
  exact resetBlock_chip_of_phase ho hc hd (by simp [chipPhase, hg, chipAfterAddr, phasePayload, hf])

omit ho in
/-- The transaction that ADDR goes on with is open and holds the command byte. -/
theorem chipAfterAddr_open (hf : s.fsm = .addr) (res : PhaseResult) :
    (chipAfterAddr s res c).txnOpen = true ∧
      (chipAfterAddr s res c).txn = commandByte s.req.op :: latchedBytes s := by
  obtain ⟨_, _, _, hchip⟩ := id hs
  obtain ⟨_, hopen, _, haddr, _⟩ := hchip c hc
  obtain ⟨_, htxn⟩ := haddr hf
  exact ⟨hopen.trans (hs.csActive_of_selected (.inl hf)), by simp [chipAfterAddr, htxn]⟩

variable (h : (resetBlock s).chip = some c')
include h

/-- WREN is a transaction of its own (R197 (d)). -/
theorem reset_outstanding_wren (hf : s.fsm = .wren) :
    c'.wel = Config.freeWel s.draws ∧ ∀ x, c'.byte x = c.byte x := by
  obtain rfl := Option.some.inj (h.symm.trans (resetBlock_chip_of_end ho hc (hs.phaseDesc_wren hf) rfl rfl))
  exact ⟨rfl, fun _ => rfl⟩

/-- After a failed CMD the transaction holds no address (R197 (a)). -/
theorem reset_outstanding_cmd (hf : s.fsm = .cmd) :
    (∀ x, c'.byte x = c.byte x) ∧ (s.req.op = .read → c'.wel = c.wel) ∧
      (s.req.op ≠ .read → c'.wel = Config.freeWel s.draws) := by
  have hreset := resetBlock_chip_of_phase ho hc (hs.phaseDesc_cmd hf) rfl
  rw [chipAtReset_of_failed rfl rfl] at hreset
  obtain rfl := Option.some.inj (h.symm.trans hreset)
  obtain ⟨hsync, _⟩ := hs.op_of_busy (by simp [hf])
  have htxn : phasePayload s = [commandByte s.req.op] := by simp [phasePayload, hf]
  exact ⟨chipAbandon_byte _ _, chipAbandon_wel_of_command s.draws hsync htxn⟩

/-- After a failed ADDR of an undamaged transaction the address is not complete (R197 (a)). -/
theorem reset_outstanding_addr (hf : s.fsm = .addr) (hh : c.health = .clean) :
    (∀ x, c'.byte x = c.byte x) ∧ (s.req.op = .read → c'.wel = c.wel) ∧
      (s.req.op ≠ .read → c'.wel = Config.freeWel s.draws) := by
  have hreset := resetBlock_chip_addr hs ho hc hf
  obtain ⟨hopen, htxn⟩ := chipAfterAddr_open hs hc hf .busError
  rw [chipAtReset_of_failed hopen (by rw [chipAfterAddr, hh]; rfl)] at hreset
  obtain rfl := Option.some.inj (h.symm.trans hreset)
  obtain ⟨hsync, _⟩ := hs.op_of_busy (by simp [hf])
  exact ⟨chipAbandon_byte _ _, chipAbandon_wel_of_command s.draws hsync htxn⟩

/-- A failed DATA of an undamaged transaction reaches the target of a WRITE alone (R197 (b), (e)). -/
theorem reset_outstanding_data (hf : s.fsm = .data) (hh : c.health = .clean) :
    (∀ x, x < beNat (latchedBytes s) ∨ beNat (latchedBytes s) + s.req.length.toNat ≤ x → c'.byte x = c.byte x) ∧
      (s.req.op = .read → c'.wel = c.wel ∧ ∀ x, c'.byte x = c.byte x) := by
  have hg : chipGeometry s c = s.geom := by simp [chipGeometry, hs.chip_geom_of_selected (.inr (.inl hf)) hc]
  obtain ⟨dir, hdir, hd⟩ := hs.phaseDesc_data hf
  obtain rfl := Option.some.inj (h.symm.trans
    (resetBlock_chip_of_end ho hc hd (chipPhase_data_failed _ _ _ _ hdir hh) rfl))
  obtain ⟨_, hlength, _⟩ := hs.latchedBytes_of_busy (by simp [hf])
  have htxn := hs.chip_txn_of_data hf hc hh
  refine ⟨fun x hx => chipDataFailed_byte_outside htxn (hg ▸ hlength) hx, fun hop => ?_⟩
  rw [hop] at htxn
  exact chipDataFailed_read_frame htxn

/-- A phase after a failed one leaves all of the chip's contents free (R197 (f)). -/
theorem reset_outstanding_damaged (hf : s.fsm = .addr ∨ s.fsm = .data) (hh : c.health ≠ .clean) :
    c'.wel = Config.freeWel s.draws ∧ ∀ x, c'.byte x = Config.freeArrayByte s.draws x := by
  rcases hf with hf | hf
  · have hreset := resetBlock_chip_addr hs ho hc hf
    obtain ⟨hopen, _⟩ := chipAfterAddr_open hs hc hf .busError
    rw [chipAtReset_of_continued hopen (TxnHealth.after_of_damaged hh .busError)] at hreset
    obtain rfl := Option.some.inj (h.symm.trans hreset)
    exact ⟨rfl, chipScramble_byte _ _⟩
  · obtain ⟨dir, hdir, hd⟩ := hs.phaseDesc_data hf
    obtain rfl := Option.some.inj (h.symm.trans
      (resetBlock_chip_of_end ho hc hd (chipPhase_data_damaged _ _ _ _ _ hdir hh) rfl))
    exact ⟨rfl, chipScramble_byte _ _⟩

omit hs in
/-- The release reaches no byte (R197 (a)). -/
theorem reset_outstanding_abort (hf : s.fsm = .abort) (x : Nat) : c'.byte x = c.byte x := by
  obtain rfl := Option.some.inj (h.symm.trans (resetBlock_chip_of_end ho hc (phaseDesc_abort hf) rfl rfl))
  exact chipAbandon_byte _ _ x

end

/-- Settles O3: the reset meets the chip as it is, or after its outstanding phase has failed, and ends what is then open. A power
cycle is a reset but for the latch. -/
theorem resetEndsTheOpenTransaction : Obligations.ResetEndsTheOpenTransaction := by
  refine ⟨fun s rest c hag hc => ?_, fun s rest hag => ⟨_, step_reset rfl, step_powerCycle hag⟩⟩
  obtain ⟨c₁, hmet⟩ := exists_chipInterrupted (s := { s with agenda := rest }) hc
  have hchip := resetBlock_chip hmet
  refine ⟨_, _, step_reset hag, hchip, chipAtReset_closed _ _ _ _, rfl, fun ho => ?_, fun ho hs => ?_⟩
  · -- no phase is outstanding
    obtain rfl : c₁ = c := Option.some.inj (hmet.symm.trans ((chipInterrupted_none ho).trans hc))
    refine ⟨chipAtReset_of_closed, fun hopen hh => ?_, fun hopen hh bytes htxn hlength => ?_,
      fun hopen hh address htxn hlength x => ?_, fun _ hh bytes => chipAtReset_read_frame hh, fun hopen hh => ?_⟩
    · rw [chipAtReset_of_failed hopen hh]
      exact chipAbandon_byte _ _
    · rw [chipAtReset_of_clean hopen hh]
      exact chipDataFailed_byte_of_incomplete htxn hlength
    · rw [chipAtReset_of_clean hopen hh]
      exact chipDataFailed_byte_outside htxn hlength
    · rw [chipAtReset_of_continued hopen hh]
      exact ⟨rfl, chipScramble_byte _ _⟩
  · -- the outstanding phase has failed
    have hs' : StateInv { s with agenda := rest } := hs
    exact ⟨reset_outstanding_wren hs' ho hc hchip, reset_outstanding_cmd hs' ho hc hchip,
      reset_outstanding_addr hs' ho hc hchip, reset_outstanding_data hs' ho hc hchip,
      reset_outstanding_damaged hs' ho hc hchip, reset_outstanding_abort ho hc hchip⟩

end Sys2Proof.Machine
end

section
/-!
An operation presented while BUSY (R250, F7): executed it is refused, and in a run it waits while the block's own move goes on.
-/

namespace Sys2Proof.Machine

theorem portRefusal_busy {s : State} (hf : s.fsm ≠ .idle) (op : ReqOp) (l : Word32) :
    portRefusal op l s = some .busy := by
  simp [portRefusal, State.busy, hf]

theorem exec_config_busy {i : Instr} {s : State} (hp : i.port = .config) (hf : s.fsm ≠ .idle) :
    exec i s = .refused .busy := by
  cases i <;> try (cases hp; done)
  case bind v | unbind | invalidConfig op v r =>
    simp [exec, execBind, execUnbind, execInvalidConfig, State.busy, hf]

/-- The block's own move leaves the agenda as it is. -/
theorem step_agenda_of_waits {s t : State} (hw : Waits s.agenda) (hf : s.fsm ≠ .idle) (h : step s = .next t) :
    t.agenda = s.agenda := by
  have hfetch := fetch_of_waits hw hf
  rcases fetchPhase_cases s with ⟨hidle, _⟩ | ⟨f, he⟩ | ⟨_, w, i, _, hd, he⟩
  · exact absurd hidle hf
  · cases (step_done (hfetch.trans he)).symm.trans h
  · rw [step_run (hfetch.trans he)] at h
    obtain ⟨_, hagenda, _⟩ := exec_phase_frame (decodePhase_port hd) h
    exact hagenda

/-- Settles O13: the ports refuse while BUSY, and the step is the block's own move. -/
theorem presentationsWaitWhileBusy : Obligations.PresentationsWaitWhileBusy := by
  intro s hf
  refine ⟨fun d => exec_decodeRequest_refused (portRefusal_busy hf _ _), fun d => exec_config_busy (decodeConfig_port d) hf,
    fun t rest h hag => step_agenda_of_waits ?_ hf h⟩
  rcases hag with ⟨d, w, hag⟩ | ⟨d, hag⟩ <;> simp [hag, Waits]

end Sys2Proof.Machine
end

section
/-!
Requests before BIND (R243): the ordinary rules at width 0.
-/

namespace Sys2Proof.Machine

/-- Settles O26: a transfer meets the unsupported width 0; SYNC and an illegal descriptor complete whatever the geometry. -/
theorem unboundRequestsComplete : Obligations.UnboundRequestsComplete := by
  intro s op offset length data _ hg hp
  obtain ⟨htaken, _⟩ := hp.taken
  refine ⟨fun i hi => ?_, ?_, fun reserved => ?_⟩
  · obtain ⟨_, hexec⟩ := unsupportedWidthIssuesNoPhase s op offset length data i hi hp (by simp [hg]) (by simp [hg])
    exact ⟨_, hexec, hp.1, rfl, by simp [hg], rfl, rfl, rfl⟩
  · rintro rfl
    exact ⟨_, exec_sync htaken, rfl, rfl, rfl, rfl, rfl⟩
  · exact ⟨_, exec_invalidRequest reserved htaken, rfl, rfl, rfl, rfl, rfl⟩

end Sys2Proof.Machine
end
